-- ==== Sys2Proof/Word.lean ====
section
/-! DEFINITION. The bit-vector types of the CFB: what the spec treats as bits, each at the width its rule gives. -/

namespace Sys2Proof

/-- One byte: a BUF cell, RES, a frame byte or an 8-bit operand (rules R15, R17, R55). -/
abbrev Byte := BitVec 8

/-- A CRC5 value, `CRC_WIDTH = 5` bits (rule R1). -/
abbrev Crc5 := BitVec 5

/-- A register address of the remote device, `REG_ADDR_WIDTH = 5` bits (rule R2). -/
abbrev RegAddr := BitVec 5

/-- A chip address, `CHIP_ADDR_WIDTH = 2` bits (rule R2). -/
abbrev ChipAddr := BitVec 2

/-- A command word, 32 bits (rule R54). -/
abbrev CmdWord := BitVec 32

/-- The Transport's return code `TCODE`: 32 bits, two's complement, 0 for success (rule R7). -/
abbrev TCode := BitVec 32

end Sys2Proof
end

