-- ==== Sys2Proof/Syntax.lean ====
section
/-! DEFINITION. The commands of the CFB (rule R56), one constructor per row of spec/opcode_table.json, and the source
lines of the assembler (rules R60, R61) with their operands as numbers. -/

namespace Sys2Proof

/-- A command of the CFB command set, revision 1 (rules R55, R56). Each operand has exactly the width of its field, so
that an operand out of range cannot be spelled (rule R55): every term is a well-formed command. -/
inductive Instr where
  /-- `NOP` (rule R100). -/
  | nop
  /-- `CFG` with `EN = A[0]` and `CHIPF = A[2:1]` (rule R91). -/
  | cfg (en : Bool) (chip : ChipAddr)
  /-- `CRC_ENC` with `B0 = A` and `B1 = B` (rule R74). -/
  | crcEnc (b0 b1 : Byte)
  /-- `CRC_DEC` with `B0 = A` and `B1 = B` (rule R75). -/
  | crcDec (b0 b1 : Byte)
  /-- `BUILD_WR` with `ADDR = A[4:0]` and `VAL = B` (rule R92). -/
  | buildWr (addr : RegAddr) (val : Byte)
  /-- `BUILD_RD` with `ADDR = A[4:0]` (rule R96). -/
  | buildRd (addr : RegAddr)
  /-- `XFER` (rule R97). -/
  | xfer
  /-- `CHK_RD` (rule R98). -/
  | chkRd
  /-- `MERGE` with `MASK = B` and `MVAL = C`; RES is read implicitly (rule R99). -/
  | merge (mask mval : Byte)
  /-- `BUILD_WRR` with `ADDR = A[4:0]`; RES is read implicitly (rule R94). -/
  | buildWrr (addr : RegAddr)
  deriving DecidableEq, Repr

/-- A line of assembler source, operands as the numbers that were written (rules R60, R61): the ten commands and the
three pseudo-instructions. Whether each operand fits its field is `Source.wellFormed`. -/
inductive Source where
  | nop
  | cfg (en chip : Nat)
  | crcEnc (b0 b1 : Nat)
  | crcDec (b0 b1 : Nat)
  | buildWr (addr val : Nat)
  | buildRd (addr : Nat)
  | xfer
  | chkRd
  | merge (mask val : Nat)
  | buildWrr (addr : Nat)
  /-- `write addr, val`. -/
  | write (addr val : Nat)
  /-- `read addr`. -/
  | read (addr : Nat)
  /-- `update addr, mask, val`. -/
  | update (addr mask val : Nat)
  deriving DecidableEq, Repr

end Sys2Proof
end

