-- ==== Sys2Proof/Decode.lean ====
section
/-! DEFINITION. The command word (rules R54 to R59): its fields, the opcode map as match and mask rows, the decoder,
which is total on every 32-bit word and rejects by name, and the encoder, written from the format of rule R54. -/

namespace Sys2Proof

/-! ### Fields (rules R54, R55) -/

/-- `OP`, bits [31:28]. -/
def CmdWord.op (w : CmdWord) : BitVec 4 := w.extractLsb' 28 4
/-- `RSV`, bits [27:24]. -/
def CmdWord.rsv (w : CmdWord) : BitVec 4 := w.extractLsb' 24 4
/-- Operand A, bits [23:16]. -/
def CmdWord.fieldA (w : CmdWord) : Byte := w.extractLsb' 16 8
/-- Operand B, bits [15:8]. -/
def CmdWord.fieldB (w : CmdWord) : Byte := w.extractLsb' 8 8
/-- Operand C, bits [7:0]. -/
def CmdWord.fieldC (w : CmdWord) : Byte := w.extractLsb' 0 8
/-- `EN = A[0]`. -/
def CmdWord.en (w : CmdWord) : Bool := (CmdWord.fieldA w).getLsbD 0
/-- `CHIPF = A[2:1]`. -/
def CmdWord.chipf (w : CmdWord) : ChipAddr := (CmdWord.fieldA w).extractLsb' 1 2
/-- `ADDR = A[4:0]`. -/
def CmdWord.addr (w : CmdWord) : RegAddr := (CmdWord.fieldA w).extractLsb' 0 5

/-! ### The opcode map (rule R56) -/

/-- One row of the opcode map: a word whose bits under `mask` equal `pattern` is the command `mnemonic`, and `command`
takes its operands from the word's fields. -/
structure OpRow where
  mnemonic : String
  pattern : CmdWord
  mask : CmdWord
  command : CmdWord → Instr

/-- The ten rows of rule R56, in its order. -/
def opcodeMap : List OpRow := [
  ⟨"NOP",       0x00000000#32, 0xFFFFFFFF#32, fun _ => .nop⟩,
  ⟨"CFG",       0x10000000#32, 0xFFF8FFFF#32, fun w => .cfg (CmdWord.en w) (CmdWord.chipf w)⟩,
  ⟨"CRC_ENC",   0x20000000#32, 0xFF0000FF#32, fun w => .crcEnc (CmdWord.fieldA w) (CmdWord.fieldB w)⟩,
  ⟨"CRC_DEC",   0x30000000#32, 0xFF0000FF#32, fun w => .crcDec (CmdWord.fieldA w) (CmdWord.fieldB w)⟩,
  ⟨"BUILD_WR",  0x40000000#32, 0xFFE000FF#32, fun w => .buildWr (CmdWord.addr w) (CmdWord.fieldB w)⟩,
  ⟨"BUILD_RD",  0x50000000#32, 0xFFE0FFFF#32, fun w => .buildRd (CmdWord.addr w)⟩,
  ⟨"XFER",      0x60000000#32, 0xFFFFFFFF#32, fun _ => .xfer⟩,
  ⟨"CHK_RD",    0x70000000#32, 0xFFFFFFFF#32, fun _ => .chkRd⟩,
  ⟨"MERGE",     0x80000000#32, 0xFFFF0000#32, fun w => .merge (CmdWord.fieldB w) (CmdWord.fieldC w)⟩,
  ⟨"BUILD_WRR", 0x90000000#32, 0xFFE0FFFF#32, fun w => .buildWrr (CmdWord.addr w)⟩]

/-! ### Decoding (rules R57, R59) -/

/-- Why a word is illegal: the two cases of rule R57. The CFB tells them apart nowhere; both raise `E_INVALID`
(DESIGN CHOICE, safe, log entry 19). -/
inductive IllegalWord where
  /-- An OP from 0xA to 0xF. -/
  | unassignedOp
  /-- An OP from 0x0 to 0x9 with a 1 in a "must be 0" bit. -/
  | mustBeZeroBitSet
  deriving DecidableEq, Repr

/-- What decoding a word gives: "every 32-bit word is either exactly one command of rule R56 or illegal" (rule R57). -/
inductive Decoded where
  | command (i : Instr)
  | illegal (why : IllegalWord)
  deriving DecidableEq, Repr

/-- The decode procedure of rule R59: the first row the word matches, else illegal. -/
def decode (w : CmdWord) : Decoded :=
  match opcodeMap.find? (fun r => w &&& r.mask == r.pattern) with
  | some r => .command (r.command w)
  | none => .illegal (if CmdWord.op w < 0xA#4 then .mustBeZeroBitSet else .unassignedOp)

/-! ### Encoding (rules R54, R55) -/

/-- The one format of rule R54, `OP : RSV : A : B : C`, with RSV 0. -/
def cmdWord (op : BitVec 4) (a b c : Byte) : CmdWord := op ++ 0#4 ++ a ++ b ++ c

/-- Operand A of the frame builders: `ADDR` in A[4:0], the rest 0. -/
def addrOperand (addr : RegAddr) : Byte := 0#3 ++ addr

/-- The word of a command (rules R54 to R56). -/
def encode : Instr → CmdWord
  | .nop => cmdWord 0x0#4 0 0 0
  | .cfg en chip => cmdWord 0x1#4 (0#5 ++ chip ++ BitVec.ofBool en) 0 0
  | .crcEnc b0 b1 => cmdWord 0x2#4 b0 b1 0
  | .crcDec b0 b1 => cmdWord 0x3#4 b0 b1 0
  | .buildWr addr val => cmdWord 0x4#4 (addrOperand addr) val 0
  | .buildRd addr => cmdWord 0x5#4 (addrOperand addr) 0 0
  | .xfer => cmdWord 0x6#4 0 0 0
  | .chkRd => cmdWord 0x7#4 0 0 0
  | .merge mask mval => cmdWord 0x8#4 0 mask mval
  | .buildWrr addr => cmdWord 0x9#4 (addrOperand addr) 0 0

/-! ### The host's question about one row of the opcode table -/

/-- The instruction the decoder reads from a word given as a number with `nbits` bits. Every command is one 32-bit
word (rule R54); a longer one is none of this hardware's. -/
def decodeTableWord (nbits w : Nat) : Option Instr :=
  if nbits ≤ 32 then
    match decode (BitVec.ofNat 32 (w % 2 ^ nbits)) with
    | .command i => some i
    | .illegal _ => none
  else none

end Sys2Proof
end

