-- ==== Sys2Proof/Config.lean ====
section
/-! DEFINITION. What an implementation fixes (rules R1 to R7) and the free values: the Transport oracle (rule R34)
and the draws `any_8` of a failed read exchange (rule R97). -/

namespace Sys2Proof

/-- `FRAME_LAYOUT` (rule R4): where the header's three fields lie in byte0. -/
inductive FrameLayout where
  /-- R/W in byte0[7], register address in byte0[6:2], chip address in byte0[1:0]. -/
  | doc
  /-- Chip address in byte0[7:6], register address in byte0[5:1], R/W in byte0[0]; the spec takes it from general
  knowledge and uses it nowhere. -/
  | alt
  deriving DecidableEq, Repr

/-- `RX_CRC_HIGH_POLICY` (rule R5): how bits [7:5] of the received CRC byte take part in the check. -/
inductive RxCrcHighPolicy where
  /-- Only byte2[4:0] is compared. -/
  | ignore
  /-- A nonzero byte2[7:5] is itself a mismatch. -/
  | strict
  deriving DecidableEq, Repr

/-- The configuration parameters of rules R1, R4 and R5 in one record, as rule R1 asks. The widths of rules R1 and R2,
`BUF_SIZE = 3` (rule R3) and `BIT_ORDER = MSB_FIRST` (rule R6, log entry 8) are fixed by the types and by `msbBits`. -/
structure Config.Params where
  /-- `CRC_POLY`. -/
  crcPoly : Crc5
  /-- `CRC_INIT`. -/
  crcInit : Crc5
  /-- `TAIL_BITS`: zero bits processed after byte1. -/
  tailBits : Nat
  /-- `ENC_B0_BITS`: how many low bits of byte0 the encode variant processes. -/
  encB0Bits : Nat
  /-- `DEC_B0_BITS`: how many low bits of byte0 the decode variant processes. -/
  decB0Bits : Nat
  /-- `FRAME_LAYOUT`. -/
  frameLayout : FrameLayout
  /-- `RX_CRC_HIGH_POLICY`. -/
  rxCrcHighPolicy : RxCrcHighPolicy
  deriving DecidableEq, Repr

/-- The spec's values (rules R1, R4, R5). DESIGN CHOICE of the spec where it says so; unsafe (log entries 6, 7, 12). -/
def Config.spec : Config.Params where
  crcPoly := 0x15#5
  crcInit := 0x1F#5
  tailBits := 3
  encB0Bits := 8
  decB0Bits := 6
  frameLayout := .doc
  rxCrcHighPolicy := .ignore

/-- What the Transport does with one exchange (rules R34, R147). -/
inductive TransportMove where
  /-- It answers with a return code and the bytes received, the k-th byte in `rk`; an exchange of 2 bytes receives
  `r0` and `r1` only, so that `rx` has exactly n bytes. -/
  | answer (code : TCode) (r0 r1 r2 : Byte)
  /-- It never answers (rule R147). -/
  | never
  deriving DecidableEq, Repr, Inhabited

/-- The Transport oracle of rule R34 (`DEVICE_ORACLE`, open by decision D34): what the Transport does with the exchange
number `draw` when it is sent the bytes `tx`. A FREE VALUE: no body, no law (log entry 3). -/
opaque Config.transportOracle (draw : Nat) (tx : List Byte) : TransportMove

/-- The draw `any_8` of rule R97. A FREE VALUE: no body, no law (log entry 4). -/
opaque Config.anyByte (draw : Nat) : Byte

end Sys2Proof
end

