-- ==== Sys2Proof/Machine/Crc.lean ====
section
/-! DEFINITION. The CRC5 functions (rules R70 to R73), over the configuration record of rule R1. -/

namespace Sys2Proof.Machine

/-- `crc5_step` (rule R70). -/
def crc5Step (p : Config.Params) (r : Crc5) (d : Bool) : Crc5 :=
  let fb := d ^^ r.getLsbD 4
  let shifted := r <<< 1
  if fb then shifted ^^^ p.crcPoly else shifted

/-- `crc5_run` (rule R71): the fold over the bits in order, from `CRC_INIT`; no final XOR, no reflection. -/
def crc5Run (p : Config.Params) (bits : List Bool) : Crc5 := bits.foldl (crc5Step p) p.crcInit

/-- The low `n` bits of a byte, the most significant of them first: `BIT_ORDER = MSB_FIRST` (rule R6, log entry 8). -/
def msbBits : Nat → Byte → List Bool
  | 0, _ => []
  | n + 1, b => b.getLsbD n :: msbBits n b

/-- `CRC5_ENC` (rule R72): `ENC_B0_BITS` of byte0, all of byte1, then the tail. -/
def crc5Enc (p : Config.Params) (b0 b1 : Byte) : Crc5 :=
  crc5Run p (msbBits p.encB0Bits b0 ++ (msbBits 8 b1 ++ List.replicate p.tailBits false))

/-- `CRC5_DEC` (rule R73): `DEC_B0_BITS` of byte0, all of byte1, then the tail. -/
def crc5Dec (p : Config.Params) (b0 b1 : Byte) : Crc5 :=
  crc5Run p (msbBits p.decB0Bits b0 ++ (msbBits 8 b1 ++ List.replicate p.tailBits false))

/-- `zext_8` of a CRC. -/
def crcByte (c : Crc5) : Byte := c.zeroExtend 8

/-! ### The affine form (rule R76), an executor twin for the spec's parameters -/

/-- `SYN0[i]`: the syndrome of byte0 bit i. -/
def syn0 : Nat → Crc5
  | 7 => 0x16 | 6 => 0x0B | 5 => 0x1F | 4 => 0x15 | 3 => 0x10 | 2 => 0x08 | 1 => 0x04 | 0 => 0x02 | _ => 0x00

/-- `SYN1[i]`: the syndrome of byte1 bit i. -/
def syn1 : Nat → Crc5
  | 7 => 0x01 | 6 => 0x1A | 5 => 0x0D | 4 => 0x1C | 3 => 0x0E | 2 => 0x07 | 1 => 0x19 | 0 => 0x16 | _ => 0x00

/-- The XOR of `syn i` over the bits i < n that are 1 in the byte. -/
def synXor (syn : Nat → Crc5) : Nat → Byte → Crc5
  | 0, _ => 0x00
  | n + 1, b => (if b.getLsbD n then syn n else 0x00) ^^^ synXor syn n b

/-- `CRC5_ENC` by rule R76's table. -/
def crc5EncTable (b0 b1 : Byte) : Crc5 := 0x07 ^^^ synXor syn0 8 b0 ^^^ synXor syn1 8 b1

/-- `CRC5_DEC` by rule R76's table. -/
def crc5DecTable (b0 b1 : Byte) : Crc5 := 0x16 ^^^ synXor syn0 6 b0 ^^^ synXor syn1 8 b1

end Sys2Proof.Machine
end

