-- ==== Sys2Proof/Machine/State.lean ====
section
/-! DEFINITION. The state of the CFB (rules R13 to R21), the agents around it as plain data (rule R10), the reasons a
step can stop, and the state after reset (rule R140). -/

namespace Sys2Proof.Machine

/-- `LEN` (rule R16): the number of bytes the next exchange moves. The value 1 never occurs and is not representable
(rule R22, log entry 9). -/
inductive FrameLen where
  /-- 0: no frame built since reset. -/
  | zero
  /-- 2: a frame without CRC. -/
  | two
  /-- 3: a frame with CRC. -/
  | three
  deriving DecidableEq, Repr

/-- `STATUS` (rules R18, R120): the outcome of the last command. -/
inductive Status where
  /-- 0: the command completed. -/
  | ok
  /-- 1: the Transport returned a nonzero code. -/
  | eTransport
  /-- 2: CRC mismatch on a read response. -/
  | eIntegrity
  /-- 3: the command word is illegal. -/
  | eInvalid
  /-- 4: the command is out of order. -/
  | eSequence
  deriving DecidableEq, Repr

/-- `PHASE` (rule R20): where the CFB stands in a transaction. -/
inductive Phase where
  /-- 0: no frame is waiting. -/
  | idle
  /-- 1: a frame is built and not yet exchanged. -/
  | txReady
  /-- 2: a read frame has been exchanged and its response not yet checked. -/
  | rxDone
  deriving DecidableEq, Repr

/-- `KIND` (rule R21): the kind of the last frame built. -/
inductive Kind where
  /-- 0: a read frame. -/
  | rd
  /-- 1: a write frame. -/
  | wr
  deriving DecidableEq, Repr

/-- The scratch buffer BUF (rules R15, R31) as cells of address and byte. The canonical form is `Memory.wf` (log
entry 11); an unlisted address reads as 0x00, each cell's reset value (rule R15). -/
abbrev Memory := List Host.Cell

/-- What arrives at the CFB's ports between two steps (log entries 1 and 2). -/
inductive PortInput where
  /-- The Host issues a command word (rule R54). -/
  | command (w : CmdWord)
  /-- Reset, which takes effect between commands (rule R141). -/
  | reset
  deriving DecidableEq, Repr

/-- One finished exchange as the wire saw it (rules R34, R35): the bytes sent, the Transport's code, and the bytes
received, which are used, and kept here, only when the code is 0 (log entry 5). -/
structure ExchangeRecord where
  tx : List Byte
  code : TCode
  rx : List Byte
  deriving DecidableEq, Repr

/-- The whole state. The first nine fields are the CFB's own (10_state.md section 2). The other five are the MODEL's:
the Host's inputs and its index (rule R12), the Transport's answers and draws (rule R34), and the record of the wire. -/
structure State where
  /-- `CRC_EN` (rule R13). -/
  crcEn : Bool
  /-- `CHIP_ADDR` (rule R14). -/
  chipAddr : ChipAddr
  /-- `BUF[0..2]` (rule R15). -/
  buf : Memory
  /-- `LEN` (rule R16). -/
  len : FrameLen
  /-- `RES` (rule R17). -/
  res : Byte
  /-- `STATUS` (rule R18). -/
  status : Status
  /-- `TERR` (rule R19). -/
  terr : TCode
  /-- `PHASE` (rule R20). -/
  phase : Phase
  /-- `KIND` (rule R21). -/
  kind : Kind
  /-- The MODEL's: what the outside presents at the ports, in the order it is presented (log entry 1). -/
  inputs : List PortInput
  /-- The MODEL's: the Host's index of the next input, Host state outside the CFB (rule R12, log entry 1). -/
  index : Nat
  /-- The MODEL's: moves the Transport is known to make next; when the list is empty, the oracle's (log entry 3). -/
  answers : List TransportMove
  /-- The MODEL's: how many draws have been taken, the argument of the free values (log entries 3 and 4). -/
  draws : Nat
  /-- The MODEL's: the finished exchanges, in issue order (rule R37, log entry 5). -/
  wire : List ExchangeRecord
  deriving DecidableEq, Repr

/-- Why the machine stops. -/
inductive Fault where
  /-- Raised by `XFER` when the Transport never answers: the CFB stays inside that `XFER` for ever (rule R147: "stuck",
  not an error code; log entry 3). Safe: the hardware takes no further step either. -/
  | transportNeverAnswers
  /-- Raised by `XFER` in a state with PHASE = TX_READY and LEN = 0, where no number of bytes is given (rules R34, R97).
  No run from reset reaches one (rule R22); 93_implementation_defined.md I11 asks for a fault. Safe (log entry 10). -/
  | noFrameLength
  deriving DecidableEq, Repr

/-- Why there is no step to take. -/
inductive Refusal where
  /-- Raised by `exec` for a command that has no meaning yet; no arm does. Safe. -/
  | notModelled (mnemonic : String)
  /-- Raised by `step` when nothing arrives at the ports: the CFB acts only on a command the Host issues (rules R10,
  R23) or on reset. Safe (log entry 1). -/
  | noInput
  deriving DecidableEq, Repr

/-- What a step answers. -/
abbrev Result := Host.Outcome State Fault Refusal

/-- The machine right after reset (rule R140, and the reset column of 10_state.md section 2; the values are the spec's
own decision, log entry 14). The last five fields are the MODEL's, empty or 0 (DESIGN CHOICE, log entries 1, 3, 4, 5). -/
def State.reset : State where
  crcEn := false
  chipAddr := 0#2
  buf := []
  len := .zero
  res := 0x00#8
  status := .ok
  terr := 0#32
  phase := .idle
  kind := .rd
  inputs := []
  index := 0
  answers := []
  draws := 0
  wire := []

end Sys2Proof.Machine
end

