-- ==== Sys2Proof/Machine/Ops.lean ====
section
/-! DEFINITION. The shared operations: the buffer (rule R31), the updates of one register, raising an error (rule
R121), the exchange with the Transport (rule R34), the draws (rule R97), reset (rule R140), and what arrives at the
ports (rule R12). -/

namespace Sys2Proof.Machine

/-! ### The buffer as memory (rules R31, R41) -/

/-- What an unlisted address reads as: every BUF cell resets to 0x00 (rule R15, log entry 11). -/
def unlistedByte : Byte := 0x00#8

/-- The byte at an address of the list, an unlisted one reading as `unlistedByte`. -/
def Memory.cell : Memory → Nat → Byte
  | [], _ => unlistedByte
  | (a, v) :: rest, i => if a = i then v else Memory.cell rest i

/-- `MemRead(i, 1)` (rule R31). No index outside 0..2 can be spelled. -/
def Memory.read (m : Memory) (i : Fin 3) : Byte := Memory.cell m i

/-- The list without the entries of an address. -/
def Memory.erase : Memory → Nat → Memory
  | [], _ => []
  | (a, v) :: rest, i => if a = i then Memory.erase rest i else (a, v) :: Memory.erase rest i

/-- An entry put in its place in a list whose addresses rise, over the one there. -/
def Memory.insert : Memory → Nat → Byte → Memory
  | [], i, v => [(i, v)]
  | (a, w) :: rest, i, v =>
    if i < a then (i, v) :: (a, w) :: rest else if a = i then (i, v) :: rest else (a, w) :: Memory.insert rest i v

/-- `MemWrite(i, 1, v)` (rule R31). Writing what an unlisted address reads as removes the entry. -/
def Memory.write (m : Memory) (i : Fin 3) (v : Byte) : Memory :=
  if v = unlistedByte then Memory.erase m i else Memory.insert m i v

/-- `MemRead(0, n)` for n ≤ 3: the list `BUF[0], …, BUF[n-1]` (rule R31). -/
def Memory.readFirst (m : Memory) (n : Nat) : List Byte :=
  [Memory.read m 0, Memory.read m 1, Memory.read m 2].take n

/-- Bytes stored at the indices 0, 1, 2 in order, as many as are given (the loops of rule R97). -/
def Memory.writeFirst (m : Memory) : List Byte → Memory
  | [] => m
  | [v0] => Memory.write m 0 v0
  | [v0, v1] => Memory.write (Memory.write m 0 v0) 1 v1
  | v0 :: v1 :: v2 :: _ => Memory.write (Memory.write (Memory.write m 0 v0) 1 v1) 2 v2

/-- Strictly rising addresses below 3 that start at `low` or above, and no entry equal to an unlisted one. -/
def Memory.wfFrom (low : Nat) : Memory → Bool
  | [] => true
  | (a, v) :: rest => decide (low ≤ a) && (decide (a < 3) && (decide (v ≠ unlistedByte) && Memory.wfFrom (a + 1) rest))

/-- The canonical form of the buffer's list. -/
def Memory.wf (m : Memory) : Bool := Memory.wfFrom 0 m

/-! ### Updates of one state element -/

/-- `BUF[i]`. -/
def State.byte (s : State) (i : Fin 3) : Byte := Memory.read s.buf i
/-- `MemWrite(i, 1, v)` on the state. -/
def State.memWrite (s : State) (i : Fin 3) (v : Byte) : State := { s with buf := Memory.write s.buf i v }
/-- `MemWrite(i, 1, bytes[i])` for i from 0 on. -/
def State.storeBytes (s : State) (bytes : List Byte) : State := { s with buf := Memory.writeFirst s.buf bytes }
/-- `CRC_EN` and `CHIP_ADDR`, which only CFG writes (rules R13, R14). -/
def State.setConfig (s : State) (en : Bool) (chip : ChipAddr) : State := { s with crcEn := en, chipAddr := chip }
/-- `LEN` (rule R16). -/
def State.setLen (s : State) (n : FrameLen) : State := { s with len := n }
/-- `RES` (rule R17). -/
def State.setRes (s : State) (v : Byte) : State := { s with res := v }
/-- `TERR` (rule R19). -/
def State.setTerr (s : State) (c : TCode) : State := { s with terr := c }
/-- `PHASE` (rule R20). -/
def State.setPhase (s : State) (p : Phase) : State := { s with phase := p }
/-- `KIND` (rule R21). -/
def State.setKind (s : State) (k : Kind) : State := { s with kind := k }

/-! ### Outcomes (rules R120, R121, R126) -/

/-- `raise E_X`: STATUS takes the code and the command ends (00_scope.md section 5, rule R121). This is all there is to
an error: no state is saved, and control goes nowhere (rule R126). -/
def State.raise (s : State) (e : Status) : State := { s with status := e }

/-- `STATUS <- OK`. -/
def State.complete (s : State) : State := { s with status := .ok }

/-! ### The Transport (rules R34, R97) -/

/-- The number of bytes LEN stands for (rule R16). -/
def FrameLen.bytes : FrameLen → Nat
  | .zero => 0
  | .two => 2
  | .three => 3

/-- What the Transport does with the next exchange: the next known move, or, where none is known, the oracle's. -/
def transportMove (answers : List TransportMove) (draws : Nat) (tx : List Byte) : TransportMove :=
  match answers with
  | m :: _ => m
  | [] => Config.transportOracle draws tx

/-- The exchange has taken place: it is on the record, the known move is used up and a draw is taken. -/
def State.recordExchange (s : State) (tx : List Byte) (code : TCode) (rx : List Byte) : State :=
  { s with answers := s.answers.tail, draws := s.draws + 1,
           wire := s.wire ++ [⟨tx, code, if code = 0#32 then rx else []⟩] }

/-- `MemWrite(i, 1, any_8)` for i in 0 .. n-1: a fresh draw for each byte (rule R97). -/
def State.drawBytes (s : State) (n : Nat) : State :=
  { s with buf := Memory.writeFirst s.buf ((List.range n).map (fun k => Config.anyByte (s.draws + k))),
           draws := s.draws + n }

/-! ### The ports: inputs and reset (rules R12, R140, R141) -/

/-- What stands at the ports for the next step. -/
def State.input (s : State) : Option PortInput := s.inputs[s.index]?

/-- The Host's index "increases by one per command" (rule R12). -/
def State.advance (s : State) : State := { s with index := s.index + 1 }

/-- Reset sets every state element of the CFB to its reset value (rule R140). The Host, the Transport and the record of
the wire are not the CFB's state, and reset does not touch them (rule R141). -/
def State.applyReset (s : State) : State :=
  { s with crcEn := State.reset.crcEn, chipAddr := State.reset.chipAddr, buf := State.reset.buf,
           len := State.reset.len, res := State.reset.res, status := State.reset.status, terr := State.reset.terr,
           phase := State.reset.phase, kind := State.reset.kind }

/-- The inputs with the one numbered `k` replaced. Numbers below `k` that the list does not have are filled with NOPs;
the index is past them. -/
def placeInput : List PortInput → Nat → PortInput → List PortInput
  | [], 0, p => [p]
  | _ :: rest, 0, p => p :: rest
  | [], k + 1, p => .command 0#32 :: placeInput [] k p
  | q :: rest, k + 1, p => q :: placeInput rest k p

end Sys2Proof.Machine
end

