-- ==== Sys2Proof/Machine/Flags.lean ====
section
/-! DEFINITION. The CFB has no flags or condition codes (rule R25). What stands here in their place: the codes of
STATUS, PHASE, KIND and LEN (rules R16, R18, R20, R21), the output ports that show them (rule R24), and the map of the
source's error classes (rule R124). -/

namespace Sys2Proof.Machine

/-- The code of `LEN`. -/
def FrameLen.code (n : FrameLen) : BitVec 2 := BitVec.ofNat 2 (FrameLen.bytes n)

/-- The code of `STATUS` (rules R18, R120). -/
def Status.code : Status → BitVec 3
  | .ok => 0
  | .eTransport => 1
  | .eIntegrity => 2
  | .eInvalid => 3
  | .eSequence => 4

/-- The code of `PHASE` (rule R20). -/
def Phase.code : Phase → BitVec 2
  | .idle => 0
  | .txReady => 1
  | .rxDone => 2

/-- The code of `KIND` (rule R21), which is also the frame's R/W flag (rule R51): 1 for a write. -/
def Kind.code : Kind → BitVec 1
  | .rd => 0
  | .wr => 1

/-- The output ports (rule R24): every state element of rules R13 to R21, at its width. -/
structure Outputs where
  crcEn : BitVec 1
  chipAddr : BitVec 2
  buf0 : BitVec 8
  buf1 : BitVec 8
  buf2 : BitVec 8
  len : BitVec 2
  res : BitVec 8
  status : BitVec 3
  terr : BitVec 32
  phase : BitVec 2
  kind : BitVec 1
  deriving DecidableEq, Repr

/-- What the Host reads between commands; reading has no side effect (rule R24). -/
def State.outputs (s : State) : Outputs where
  crcEn := BitVec.ofBool s.crcEn
  chipAddr := s.chipAddr
  buf0 := s.byte 0
  buf1 := s.byte 1
  buf2 := s.byte 2
  len := FrameLen.code s.len
  res := s.res
  status := Status.code s.status
  terr := s.terr
  phase := Phase.code s.phase
  kind := Kind.code s.kind

/-- The source's error classes (60_exceptions.md, and rule R124). -/
inductive SourceError where
  | transportFailure
  | integrityFailure
  | invalidArgument
  | resourceExhaustion
  | noSuchDevice
  deriving DecidableEq, Repr

/-- The CFB's code for a class of the source; the last two belong to the lifecycle manager and are never raised (rule
R124). -/
def SourceError.status : SourceError → Option Status
  | .transportFailure => some .eTransport
  | .integrityFailure => some .eIntegrity
  | .invalidArgument => some .eInvalid
  | .resourceExhaustion => none
  | .noSuchDevice => none

end Sys2Proof.Machine
end

