-- ==== Sys2Proof/Machine/Operands.lean ====
section
/-! DEFINITION. The values commands make from their operands: the header byte (rules R51, R90), the wire images of
frames (rules R93, R95), and the masked value of an Update (rule R99). The operand fields of a command word are in
Sys2Proof/Decode.lean (rule R55); the one implicit operand is RES. -/

namespace Sys2Proof.Machine

/-- `HDR(rw, addr)` (rule R90) under a `FRAME_LAYOUT` (rule R4), for the chip address at the time of the build
(DESIGN CHOICE of the spec: `FRAME_LAYOUT` is `DOC`; unsafe, log entry 6). -/
def header (layout : FrameLayout) (rw : Kind) (addr : RegAddr) (chip : ChipAddr) : Byte :=
  match layout with
  | .doc => Kind.code rw ++ addr ++ chip
  | .alt => chip ++ addr ++ Kind.code rw

/-- byte2 of a frame to be sent: the encode CRC of the first two bytes, bits [7:5] being 0 (rule R53). -/
def frameCrc (p : Config.Params) (b0 b1 : Byte) : Byte := crcByte (crc5Enc p b0 b1)

/-- The wire image of a frame with these first two bytes, with CRC or without (rules R50, R93, R95). -/
def frameImage (p : Config.Params) (crcEn : Bool) (b0 b1 : Byte) : List Byte :=
  if crcEn then [b0, b1, frameCrc p b0 b1] else [b0, b1]

/-- The wire image of a write frame (rule R93). -/
def writeImage (p : Config.Params) (crcEn : Bool) (chip : ChipAddr) (addr : RegAddr) (val : Byte) : List Byte :=
  frameImage p crcEn (header p.frameLayout .wr addr chip) val

/-- The wire image of a read request (rule R95): byte1 is 0x00. -/
def readImage (p : Config.Params) (crcEn : Bool) (chip : ChipAddr) (addr : RegAddr) : List Byte :=
  frameImage p crcEn (header p.frameLayout .rd addr chip) 0x00#8

/-- `(old & ~mask) | (val & mask)` (rule R99). -/
def mergeValue (old mask val : Byte) : Byte := (old &&& ~~~mask) ||| (val &&& mask)

/-- Does the received CRC byte match the computed CRC, under an `RX_CRC_HIGH_POLICY` (rules R5, R98;
DESIGN CHOICE of the spec: it is `IGNORE`; unsafe, log entry 7)? -/
def rxCrcMatches (policy : RxCrcHighPolicy) (computed : Crc5) (received : Byte) : Bool :=
  match policy with
  | .ignore => crcByte computed == (received &&& 0x1F#8)
  | .strict => crcByte computed == received

end Sys2Proof.Machine
end

