-- ==== Sys2Proof/Machine/Codec.lean ====
section
/-! DEFINITION. The codec commands CRC_ENC (rule R74) and CRC_DEC (rule R75). -/

namespace Sys2Proof.Machine

/-- What both codec commands do with their CRC: RES takes it, zero-extended, and STATUS is OK (rules R74, R75). -/
def State.deliverCrc (s : State) (c : Crc5) : State := (s.setRes (crcByte c)).complete

/-- `CRC_ENC` (rule R74). -/
def execCrcEnc (b0 b1 : Byte) (s : State) : Result := .next (s.deliverCrc (crc5Enc Config.spec b0 b1))

/-- `CRC_DEC` (rule R75). -/
def execCrcDec (b0 b1 : Byte) (s : State) : Result := .next (s.deliverCrc (crc5Dec Config.spec b0 b1))

end Sys2Proof.Machine
end

