-- ==== Sys2Proof/Machine/Frames.lean ====
section
/-! DEFINITION. The configuration command CFG (rule R91) and the frame builders BUILD_WR, BUILD_WRR and BUILD_RD (rules
R92, R94, R96), each over shared operations that take the configuration record. -/

namespace Sys2Proof.Machine

/-- The CRC step of a builder: with CRC on, byte2 takes the encode CRC of BUF[0] and BUF[1] and LEN is 3; with CRC off,
LEN is 2 and BUF[2] is left alone (rules R92, R94, R96). -/
def State.appendCrc (p : Config.Params) (s : State) : State :=
  if s.crcEn then (s.memWrite 2 (frameCrc p (s.byte 0) (s.byte 1))).setLen .three else s.setLen .two

/-- A frame is built and waits to be exchanged. -/
def State.frameReady (s : State) (k : Kind) : State := ((s.setPhase .txReady).setKind k).complete

/-- The pseudocode BUILD_WR and BUILD_WRR share (rules R92, R94). -/
def State.buildWrite (p : Config.Params) (s : State) (addr : RegAddr) (val : Byte) : State :=
  let headed := s.memWrite 0 (header p.frameLayout .wr addr s.chipAddr)
  let valued := headed.memWrite 1 val
  (valued.appendCrc p).frameReady .wr

/-- The pseudocode of BUILD_RD (rule R96): the buffer is zeroed first. -/
def State.buildRead (p : Config.Params) (s : State) (addr : RegAddr) : State :=
  let zeroed := ((s.memWrite 0 0x00#8).memWrite 1 0x00#8).memWrite 2 0x00#8
  let headed := zeroed.memWrite 0 (header p.frameLayout .rd addr s.chipAddr)
  (headed.appendCrc p).frameReady .rd

/-- `CFG` (rule R91). -/
def execCfg (en : Bool) (chip : ChipAddr) (s : State) : Result := .next (s.setConfig en chip).complete

/-- `BUILD_WR` (rule R92). -/
def execBuildWr (addr : RegAddr) (val : Byte) (s : State) : Result := .next (s.buildWrite Config.spec addr val)

/-- `BUILD_RD` (rule R96). -/
def execBuildRd (addr : RegAddr) (s : State) : Result := .next (s.buildRead Config.spec addr)

/-- `BUILD_WRR` (rule R94): "`BUILD_WR` with `VAL = RES`". -/
def execBuildWrr (addr : RegAddr) (s : State) : Result := .next (s.buildWrite Config.spec addr s.res)

end Sys2Proof.Machine
end

