-- ==== Sys2Proof/Machine/Merge.lean ====
section
/-! DEFINITION. The commands MERGE (rule R99) and NOP (rule R100). -/

namespace Sys2Proof.Machine

/-- `MERGE` (rule R99). -/
def execMerge (mask mval : Byte) (s : State) : Result := .next (s.setRes (mergeValue s.res mask mval)).complete

/-- `NOP` (rule R100). -/
def execNop (s : State) : Result := .next s.complete

end Sys2Proof.Machine
end

