-- ==== Sys2Proof/Machine/Transfer.lean ====
section
/-! DEFINITION. The exchange XFER (rule R97) and the response check CHK_RD (rule R98). -/

namespace Sys2Proof.Machine

/-- What XFER does once the Transport has answered an exchange of `n` bytes with code 0 and `rx`: a read response
overwrites the request, a write response is discarded (rule R97). -/
def State.exchangeSucceeded (s : State) (rx : List Byte) : State :=
  match s.kind with
  | .rd => ((s.storeBytes rx).setPhase .rxDone).complete
  | .wr => (s.setPhase .idle).complete

/-- What XFER does once the Transport has answered an exchange of `n` bytes with a nonzero code: after a read frame the
buffer's contents are unknown (rule R97). -/
def State.exchangeFailed (s : State) (n : Nat) : State :=
  match s.kind with
  | .rd => ((s.drawBytes n).setPhase .idle).raise .eTransport
  | .wr => (s.setPhase .idle).raise .eTransport

/-- The effect of an answered exchange of `tx`: TERR takes the code unchanged, and the rest follows the code,
of which 0 means success (PRESUMED by the spec, rule R7; unsafe, log entry 13). -/
def State.exchangeAnswered (s : State) (tx : List Byte) (code : TCode) (rx : List Byte) : State :=
  let answered := (s.recordExchange tx code rx).setTerr code
  if code = 0#32 then answered.exchangeSucceeded rx else answered.exchangeFailed tx.length

/-- One exchange of the first `n` bytes of the buffer, as one transaction (rules R34, R97): exactly one, never a retry.
A Transport that never answers leaves the CFB inside the command (rule R147, log entry 3). -/
def State.transact (s : State) (n : Nat) : Result :=
  let tx := Memory.readFirst s.buf n
  match transportMove s.answers s.draws tx with
  | .answer code r0 r1 r2 => .next (s.exchangeAnswered tx code ([r0, r1, r2].take n))
  | .never => .fault .transportNeverAnswers

/-- `XFER` (rule R97). The fault for LEN = 0, which no reachable state has here, is a DESIGN CHOICE (safe, log entry
10). -/
def execXfer (s : State) : Result :=
  if s.phase = .txReady then
    match s.len with
    | .zero => .fault .noFrameLength
    | .two => s.transact 2
    | .three => s.transact 3
  else .next (s.raise .eSequence)

/-- Is the response in the buffer acceptable? It is checked exactly when LEN is 3, that is, when the frame was built
with CRC on (rule R98). LEN = 0, which no reachable state has here, is DEDUCED from that (safe, log entry 18). -/
def State.responseOk (p : Config.Params) (s : State) : Bool :=
  match s.len with
  | .three => rxCrcMatches p.rxCrcHighPolicy (crc5Dec p (s.byte 0) (s.byte 1)) (s.byte 2)
  | .two => true
  | .zero => true

/-- The pseudocode of CHK_RD (rule R98). -/
def State.checkResponse (p : Config.Params) (s : State) : State :=
  if s.phase = .rxDone then
    let checked := s.setPhase .idle
    if s.responseOk p then (checked.setRes (s.byte 1)).complete else checked.raise .eIntegrity
  else s.raise .eSequence

/-- `CHK_RD` (rule R98). -/
def execChkRd (s : State) : Result := .next (s.checkResponse Config.spec)

end Sys2Proof.Machine
end

