-- ==== Sys2Proof/Machine/Dispatch.lean ====
section
/-! DEFINITION. One arm per command, each one direct call of its meaning. -/

namespace Sys2Proof.Machine

def exec (i : Instr) (s : State) : Host.Outcome State Fault Refusal :=
  match i with
  | .nop => Sys2Proof.Machine.execNop s
  | .cfg en chip => Sys2Proof.Machine.execCfg en chip s
  | .crcEnc b0 b1 => Sys2Proof.Machine.execCrcEnc b0 b1 s
  | .crcDec b0 b1 => Sys2Proof.Machine.execCrcDec b0 b1 s
  | .buildWr addr val => Sys2Proof.Machine.execBuildWr addr val s
  | .buildRd addr => Sys2Proof.Machine.execBuildRd addr s
  | .xfer => Sys2Proof.Machine.execXfer s
  | .chkRd => Sys2Proof.Machine.execChkRd s
  | .merge mask mval => Sys2Proof.Machine.execMerge mask mval s
  | .buildWrr addr => Sys2Proof.Machine.execBuildWrr addr s

end Sys2Proof.Machine
end

