-- ==== Sys2Proof/Machine/Command.lean ====
section
/-! DEFINITION. One command word at the command port (rules R23, R57, R123): it is decoded first; an illegal word
raises E_INVALID and changes nothing else, and a command has its meaning. -/

namespace Sys2Proof.Machine

/-- What the CFB does with one command word. -/
def execWord (w : CmdWord) (s : State) : Result :=
  match decode w with
  | .command i => exec i s
  | .illegal _ => .next (s.raise .eInvalid)

end Sys2Proof.Machine
end

