-- ==== Sys2Proof/Machine/Step.lean ====
section
/-! DEFINITION. One step (rule R23): what stands at the ports is taken, the Host's index moves on (rule R12), and the
command has its whole effect, or reset does (rule R141). There is one Host (rule R37, log entry 20), and time is left
out (rule R149, log entry 16). -/

namespace Sys2Proof.Machine

/-- One step of the machine. -/
def step (s : State) : Host.Outcome State Fault Refusal :=
  match s.input with
  | some (.command w) => execWord w s.advance
  | some .reset => .next s.advance.applyReset
  | none => .refused .noInput

/-- The state with this word as the command at the port for the next step (log entry 1: it stands for the Host issuing
it). Nothing else changes. -/
def State.withFetchWord (s : State) (nbits w : Nat) : State :=
  { s with inputs := placeInput s.inputs s.index (.command (BitVec.ofNat 32 (w % 2 ^ nbits))) }

end Sys2Proof.Machine
end

