-- ==== Sys2Proof/WellFormed.lean ====
section
/-! DEFINITION. When a source line is legal: every operand fits its field (rule R60). A term of `Instr` needs no such
check, since its operands have the widths of their fields (rule R55). -/

namespace Sys2Proof

/-- Does the number fit a field of `width` bits? -/
def fitsField (width n : Nat) : Bool := decide (n < 2 ^ width)

/-- "An operand is legal when its value fits its field" (rule R60), for each form of rules R60 and R61. -/
def Source.wellFormed : Source → Bool
  | .nop => true
  | .cfg en chip => fitsField 1 en && fitsField 2 chip
  | .crcEnc b0 b1 => fitsField 8 b0 && fitsField 8 b1
  | .crcDec b0 b1 => fitsField 8 b0 && fitsField 8 b1
  | .buildWr addr val => fitsField 5 addr && fitsField 8 val
  | .buildRd addr => fitsField 5 addr
  | .xfer => true
  | .chkRd => true
  | .merge mask val => fitsField 8 mask && fitsField 8 val
  | .buildWrr addr => fitsField 5 addr
  | .write addr val => fitsField 5 addr && fitsField 8 val
  | .read addr => fitsField 5 addr
  | .update addr mask val => fitsField 5 addr && (fitsField 8 mask && fitsField 8 val)

end Sys2Proof
end

