-- ==== Sys2Proof/Machine/Assembler.lean ====
section
/-! DEFINITION. The assembler (rules R60, R61): from a line of text to a source line, and from a source line to the
commands it stands for. Text is a list of characters. The points of the text form that rule R60 leaves open are log
entry 15. -/

namespace Sys2Proof.Machine

/-! ### From a source line to commands -/

/-- The commands of a source line whose operands fit their fields: one for each of the ten commands, and the expansion
of rule R61 for each pseudo-instruction. -/
def Source.commands : Source → List Instr
  | .nop => [.nop]
  | .cfg en chip => [.cfg (decide (en = 1)) (BitVec.ofNat 2 chip)]
  | .crcEnc b0 b1 => [.crcEnc (BitVec.ofNat 8 b0) (BitVec.ofNat 8 b1)]
  | .crcDec b0 b1 => [.crcDec (BitVec.ofNat 8 b0) (BitVec.ofNat 8 b1)]
  | .buildWr addr val => [.buildWr (BitVec.ofNat 5 addr) (BitVec.ofNat 8 val)]
  | .buildRd addr => [.buildRd (BitVec.ofNat 5 addr)]
  | .xfer => [.xfer]
  | .chkRd => [.chkRd]
  | .merge mask val => [.merge (BitVec.ofNat 8 mask) (BitVec.ofNat 8 val)]
  | .buildWrr addr => [.buildWrr (BitVec.ofNat 5 addr)]
  | .write addr val => [.buildWr (BitVec.ofNat 5 addr) (BitVec.ofNat 8 val), .xfer]
  | .read addr => [.buildRd (BitVec.ofNat 5 addr), .xfer, .chkRd]
  | .update addr mask val =>
    [.buildRd (BitVec.ofNat 5 addr), .xfer, .chkRd, .merge (BitVec.ofNat 8 mask) (BitVec.ofNat 8 val),
     .buildWrr (BitVec.ofNat 5 addr), .xfer]

/-- The command words of a source line; a line with an operand that does not fit is refused, not truncated (rule R60). -/
def Source.assemble (src : Source) : Option (List CmdWord) :=
  if src.wellFormed then some ((Source.commands src).map encode) else none

/-! ### From text to a source line -/

/-- Blank characters. -/
def isBlank (c : Char) : Bool := c == ' ' || c == '\t'

/-- The text without blanks before and after it. -/
def trimBlanks (t : List Char) : List Char := ((t.dropWhile isBlank).reverse.dropWhile isBlank).reverse

/-- The value of a digit in bases up to 16. -/
def digitValue (c : Char) : Option Nat :=
  if '0' ≤ c ∧ c ≤ '9' then some (c.toNat - '0'.toNat)
  else if 'a' ≤ c ∧ c ≤ 'f' then some (c.toNat - 'a'.toNat + 10)
  else if 'A' ≤ c ∧ c ≤ 'F' then some (c.toNat - 'A'.toNat + 10)
  else none

/-- The number that digits write in a base, after what has been read so far. -/
def readDigits (base : Nat) : Nat → List Char → Option Nat
  | acc, [] => some acc
  | acc, c :: rest =>
    match digitValue c with
    | some d => if d < base then readDigits base (base * acc + d) rest else none
    | none => none

/-- "A number is decimal or `0x` hexadecimal" (rule R60). -/
def readNumber : List Char → Option Nat
  | [] => none
  | ['0', 'x'] => none
  | '0' :: 'x' :: digits => readDigits 16 0 digits
  | digits => readDigits 10 0 digits

/-- The pieces of a text between commas. -/
def splitCommas : List Char → List (List Char)
  | [] => [[]]
  | c :: rest =>
    if c == ',' then [] :: splitCommas rest
    else match splitCommas rest with
      | [] => [[c]]
      | piece :: more => (c :: piece) :: more

/-- The numbers of a list of texts, none if one of them is no number. -/
def readNumbers : List (List Char) → Option (List Nat)
  | [] => some []
  | t :: rest =>
    match readNumber (trimBlanks t), readNumbers rest with
    | some n, some ns => some (n :: ns)
    | _, _ => none

/-- The operands of a line: none when nothing stands there, else numbers separated by commas (rule R60). -/
def readOperands (t : List Char) : Option (List Nat) :=
  match trimBlanks t with
  | [] => some []
  | text => readNumbers (splitCommas text)

/-- The source line a mnemonic and its operands write (the syntax column of rules R60 and R61). -/
def sourceForm : List Char → List Nat → Option Source
  | ['n', 'o', 'p'], [] => some .nop
  | ['c', 'f', 'g'], [en, chip] => some (.cfg en chip)
  | ['c', 'r', 'c', '.', 'e', 'n', 'c'], [b0, b1] => some (.crcEnc b0 b1)
  | ['c', 'r', 'c', '.', 'd', 'e', 'c'], [b0, b1] => some (.crcDec b0 b1)
  | ['b', 'u', 'i', 'l', 'd', '.', 'w', 'r'], [addr, val] => some (.buildWr addr val)
  | ['b', 'u', 'i', 'l', 'd', '.', 'r', 'd'], [addr] => some (.buildRd addr)
  | ['x', 'f', 'e', 'r'], [] => some .xfer
  | ['c', 'h', 'k', '.', 'r', 'd'], [] => some .chkRd
  | ['m', 'e', 'r', 'g', 'e'], [mask, val] => some (.merge mask val)
  | ['b', 'u', 'i', 'l', 'd', '.', 'w', 'r', 'r'], [addr] => some (.buildWrr addr)
  | ['w', 'r', 'i', 't', 'e'], [addr, val] => some (.write addr val)
  | ['r', 'e', 'a', 'd'], [addr] => some (.read addr)
  | ['u', 'p', 'd', 'a', 't', 'e'], [addr, mask, val] => some (.update addr mask val)
  | _, _ => none

/-- What a line of text is. -/
inductive AsmLine where
  /-- Blanks and comment only. -/
  | empty
  | source (src : Source)
  /-- Not of the syntax of rules R60 and R61. -/
  | refused
  deriving DecidableEq, Repr

/-- A line of text, its comment cut off at the first `;` (rule R60). -/
def readLine (t : List Char) : AsmLine :=
  match trimBlanks (t.takeWhile (fun c => c != ';')) with
  | [] => .empty
  | text =>
    match readOperands (text.dropWhile (fun c => !isBlank c)) with
    | some operands =>
      match sourceForm (text.takeWhile (fun c => !isBlank c)) operands with
      | some src => .source src
      | none => .refused
    | none => .refused

/-- The command words of one line of text; none if the assembler refuses it. -/
def assembleLine (t : List Char) : Option (List CmdWord) :=
  match readLine t with
  | .empty => some []
  | .source src => Source.assemble src
  | .refused => none

/-- The command words of a text given line by line. A refused line refuses the whole text: rule R60 says only that the
assembler refuses the line (DESIGN CHOICE, unsafe for claims about text only, log entry 15). -/
def assembleText : List (List Char) → Option (List CmdWord)
  | [] => some []
  | t :: rest =>
    match assembleLine t, assembleText rest with
    | some ws, some more => some (ws ++ more)
    | _, _ => none

end Sys2Proof.Machine
end

