-- ==== Sys2Proof/Machine/HostProgram.lean ====
section
/-! DEFINITION. The Host's side of rule R61: it issues a list of command words in order and stops at the first command
whose STATUS is not OK. The CFB does not enforce this, and `step` does not (log entry 17). -/

namespace Sys2Proof.Machine

/-- The Host issues command words in order and stops at the first whose STATUS is not OK, "which makes that STATUS (and,
for `E_TRANSPORT`, TERR) the result" (rule R61). -/
def issue : List CmdWord → State → Result
  | [], s => .next s
  | w :: rest, s =>
    match execWord w s with
    | .next t => if t.status = .ok then issue rest t else .next t
    | .fault f => .fault f
    | .refused r => .refused r

/-- The Host issues the expansion of a source line; a line the assembler refuses issues nothing. -/
def issueSource (src : Source) (s : State) : Result :=
  match Source.assemble src with
  | some words => issue words s
  | none => .next s

/-- The Host means to issue these words, from the start (log entry 1). -/
def State.withProgram (s : State) (words : List CmdWord) : State :=
  { s with inputs := words.map PortInput.command, index := 0 }

end Sys2Proof.Machine
end

