-- ==== Sys2Proof/Machine/Wire.lean ====
section
/-! DEFINITION. The SPI wire bit by bit (rules R32, R35): what the CFB drives in one exchange, and how received bits
make bytes. Polarity, clock and timing are out of scope (log entry 16). -/

namespace Sys2Proof.Machine

/-- What the CFB drives on the wire. -/
inductive WireEvent where
  /-- Chip-select is asserted. -/
  | select
  /-- One bit is sent. -/
  | bit (b : Bool)
  /-- Chip-select is de-asserted. -/
  | deselect
  deriving DecidableEq, Repr

/-- The bits of a list of bytes, in index order, bit 7 of each byte first (rule R32). -/
def wireBits : List Byte → List Bool
  | [] => []
  | b :: rest => msbBits 8 b ++ wireBits rest

/-- One transaction: chip-select is asserted before the first bit and de-asserted after the last, and stays asserted
between the bytes (rule R35). -/
def transactionEvents (tx : List Byte) : List WireEvent :=
  .select :: ((wireBits tx).map WireEvent.bit ++ [.deselect])

/-- Everything the CFB has driven on the wire, transaction by transaction (rules R35, R37). -/
def State.wireEvents (s : State) : List WireEvent := s.wire.flatMap (fun e => transactionEvents e.tx)

/-- The byte whose bits arrive in this order, the first as bit 7 (rule R32). -/
def byteOfBits (bits : List Bool) : Byte := bits.foldl (fun acc b => (acc <<< 1) ||| (BitVec.ofBool b).zeroExtend 8) 0#8

/-- The first `n` bytes that the received bits make: "the k-th byte received is stored at index k" (rule R32). -/
def receivedBytes : Nat → List Bool → List Byte
  | 0, _ => []
  | n + 1, bits => byteOfBits (bits.take 8) :: receivedBytes n (bits.drop 8)

end Sys2Proof.Machine
end

