-- ==== Sys2Proof/Safety.lean ====
section
/-! DEFINITION. What counts as a good state: the invariants of rule R22, the canonical form of the buffer (log entry
11), and, derived from rules R92 to R97, that a frame waiting to be exchanged is a well-formed frame. -/

namespace Sys2Proof.Machine

/-- Rule R22, items 2 and 3; items 1 and 4 hold by the types of LEN and STATUS (log entry 9). -/
def State.SequenceInv (s : State) : Prop :=
  (s.phase ≠ .idle → s.len = .two ∨ s.len = .three) ∧ (s.phase = .rxDone → s.kind = .rd)

/-- The bytes of a well-formed frame of a kind (rules R50 to R53, R93, R95): byte0[7] is the R/W flag, byte1 of a read
request is 0x00, and byte2, in a frame of 3 bytes, is the encode CRC of the other two with bits [7:5] 0. -/
def FrameBytes (k : Kind) (tx : List Byte) : Prop :=
  ∃ b0 b1, b0.getLsbD 7 = (k == .wr) ∧ (k = .rd → b1 = 0x00#8) ∧
    (tx = [b0, b1] ∨ tx = [b0, b1, crcByte (crc5Enc Config.spec b0 b1)])

/-- A frame that waits to be exchanged is a well-formed frame of its kind. -/
def State.PendingFrameInv (s : State) : Prop :=
  s.phase = .txReady → FrameBytes s.kind (Memory.readFirst s.buf (FrameLen.bytes s.len))

/-- Every exchange on the record sent a well-formed frame, and, when it succeeded, received as many bytes as it sent
(rules R34, R36). -/
def State.WireInv (s : State) : Prop :=
  ∀ e ∈ s.wire, (∃ k, FrameBytes k e.tx) ∧ (e.code = 0#32 → e.rx.length = e.tx.length)

/-- A good state. -/
structure State.Inv (s : State) : Prop where
  sequence : s.SequenceInv
  bufferWf : Memory.wf s.buf = true
  pendingFrame : s.PendingFrameInv
  wireFrames : s.WireInv

/-- A run is safe when it never hits the fault that only states outside rule R22 can raise. The other fault is the
Transport's doing (rule R147). -/
def SafeOutcome : Result → Prop
  | .next _ => True
  | .fault f => f = .transportNeverAnswers
  | .refused _ => True

/-- The states reachable from reset (rule R22): reset with any inputs to come, any known moves of the Transport and any
place in the draws, then steps. -/
inductive Reachable : State → Prop
  | start (inputs : List PortInput) (answers : List TransportMove) (draws : Nat) :
      Reachable { State.reset with inputs := inputs, answers := answers, draws := draws }
  | step {s t : State} : Reachable s → Sys2Proof.Machine.step s = .next t → Reachable t

/-! ### The terms the claims use -/

/-- The bytes the next exchange would send: `MemRead(0, LEN)` (rule R97). -/
def State.pendingFrame (s : State) : List Byte := Memory.readFirst s.buf (FrameLen.bytes s.len)

/-- What the Transport does if the next exchange sends `tx` (rule R34). -/
def State.transportAnswers (s : State) (tx : List Byte) : TransportMove := transportMove s.answers s.draws tx

/-- Rule R122: the phases in which a command is legal. -/
def legalIn : Instr → Phase → Bool
  | .xfer, p => p == .txReady
  | .chkRd, p => p == .rxDone
  | .buildWr _ _, _ => true
  | .buildWrr _, _ => true
  | .buildRd _, _ => true
  | .cfg _ _, _ => true
  | .crcEnc _ _, _ => true
  | .crcDec _ _, _ => true
  | .merge _ _, _ => true
  | .nop, _ => true

/-- Rule R122: the phase after a legal command, given PHASE and KIND before it and STATUS after it. -/
def nextPhase : Instr → Phase → Kind → Status → Phase
  | .buildWr _ _, _, _, _ => .txReady
  | .buildWrr _, _, _, _ => .txReady
  | .buildRd _, _, _, _ => .txReady
  | .xfer, _, .rd, .ok => .rxDone
  | .xfer, _, _, _ => .idle
  | .chkRd, _, _, _ => .idle
  | .cfg _ _, p, _, _ => p
  | .crcEnc _ _, p, _, _ => p
  | .crcDec _ _, p, _, _ => p
  | .merge _ _, p, _, _ => p
  | .nop, p, _, _ => p

/-- A pattern of bit errors in a received frame of 3 bytes (rule R79). -/
structure ErrorPattern where
  e0 : Byte
  e1 : Byte
  e2 : Byte
  deriving DecidableEq, Repr

/-- Both patterns at once. -/
def ErrorPattern.and (e f : ErrorPattern) : ErrorPattern := ⟨e.e0 ^^^ f.e0, e.e1 ^^^ f.e1, e.e2 ^^^ f.e2⟩

/-- The state with the errors in its received bytes. -/
def State.corrupt (s : State) (e : ErrorPattern) : State :=
  ((s.memWrite 0 (s.byte 0 ^^^ e.e0)).memWrite 1 (s.byte 1 ^^^ e.e1)).memWrite 2 (s.byte 2 ^^^ e.e2)

/-- The single-bit errors of the 19 protected bits: byte0[5:0], byte1[7:0] and byte2[4:0] (rule R79). -/
def protectedBits : List ErrorPattern :=
  (List.range 6).map (fun k => ⟨1#8 <<< k, 0, 0⟩) ++
    ((List.range 8).map (fun k => ⟨0, 1#8 <<< k, 0⟩) ++ (List.range 5).map (fun k => ⟨0, 0, 1#8 <<< k⟩))

/-- The five double-bit patterns of rule R79. -/
def undetectedPairs : List (ErrorPattern × ErrorPattern) := [
  (⟨0x08, 0, 0⟩, ⟨0, 0, 0x10⟩),
  (⟨0x04, 0, 0⟩, ⟨0, 0, 0x08⟩),
  (⟨0x02, 0, 0⟩, ⟨0, 0, 0x04⟩),
  (⟨0x01, 0, 0⟩, ⟨0, 0, 0x02⟩),
  (⟨0, 0x80, 0⟩, ⟨0, 0, 0x01⟩)]

/-- A read response of 3 bytes waits to be checked, and its CRC is right (rule R98, under IGNORE). -/
def State.HoldsValidResponse (s : State) : Prop :=
  s.phase = .rxDone ∧ s.len = .three ∧ crcByte (crc5Dec Config.spec (s.byte 0) (s.byte 1)) = s.byte 2 &&& 0x1F#8

/-- What a write-frame builder leaves (rules R92, R94), from the state before: the three cells, LEN, and nothing else
but PHASE, KIND and STATUS. -/
def WriteFrameBuilt (s t : State) (addr : RegAddr) (val : Byte) : Prop :=
  t.byte 0 = 1#1 ++ addr ++ s.chipAddr ∧ t.byte 1 = val ∧
  (s.crcEn = true →
    t.byte 2 = crcByte (crc5Enc Config.spec (1#1 ++ addr ++ s.chipAddr) val) ∧ t.len = .three) ∧
  (s.crcEn = false → t.byte 2 = s.byte 2 ∧ t.len = .two) ∧
  t = { s with buf := t.buf, len := t.len, phase := .txReady, kind := .wr, status := .ok }

/-- What BUILD_RD leaves (rule R96). -/
def ReadFrameBuilt (s t : State) (addr : RegAddr) : Prop :=
  t.byte 0 = 0#1 ++ addr ++ s.chipAddr ∧ t.byte 1 = 0x00#8 ∧
  (s.crcEn = true →
    t.byte 2 = crcByte (crc5Enc Config.spec (0#1 ++ addr ++ s.chipAddr) 0x00#8) ∧ t.len = .three) ∧
  (s.crcEn = false → t.byte 2 = 0x00#8 ∧ t.len = .two) ∧
  t = { s with buf := t.buf, len := t.len, phase := .txReady, kind := .rd, status := .ok }

/-- The wire image of a frame with header bits `rw : addr : CHIP_ADDR` (rules R93, R95), written out. -/
def wireImage (s : State) (rw : BitVec 1) (addr : RegAddr) (val : Byte) : List Byte :=
  let b0 : Byte := rw ++ addr ++ s.chipAddr
  if s.crcEn then [b0, val, crcByte (crc5Enc Config.spec b0 val)] else [b0, val]

end Sys2Proof.Machine
end

