-- ==== Sys2Proof/Certificates/Slice0/Obligations.lean ====
section
/-! DEFINITION. The statements about the CFB that the provers are asked to settle. A statement about an answer of the
Transport holds for every answer: a known move or a draw of the oracle (log entry 3). -/

open Sys2Proof Sys2Proof.Machine

/-! ### The CRC5 codec -/

/-- Rule R70, bit by bit: the shift, and the feedback into the polynomial's bits 4, 2 and 0; and its example. -/
def Obligations.CrcStepShiftsAndFeedsBack : Prop :=
  (∀ (r : Crc5) (d : Bool),
    (crc5Step Config.spec r d).getLsbD 0 = (d ^^ r.getLsbD 4) ∧
    (crc5Step Config.spec r d).getLsbD 1 = r.getLsbD 0 ∧
    (crc5Step Config.spec r d).getLsbD 2 = (r.getLsbD 1 ^^ (d ^^ r.getLsbD 4)) ∧
    (crc5Step Config.spec r d).getLsbD 3 = r.getLsbD 2 ∧
    (crc5Step Config.spec r d).getLsbD 4 = (r.getLsbD 3 ^^ (d ^^ r.getLsbD 4))) ∧
  crc5Step Config.spec 0b11111#5 false = 0b01011#5

/-- Rule R71 (a run folds the step over the bits from 0b11111), and the bit lists of the encode and decode variants. -/
def Obligations.CrcVariantsRunOverTheirBits : Prop :=
  (∀ bits : List Bool, crc5Run Config.spec bits = bits.foldl (crc5Step Config.spec) 0b11111#5) ∧
  ∀ b0 b1 : Byte,
    crc5Enc Config.spec b0 b1 = crc5Run Config.spec
      [b0.getLsbD 7, b0.getLsbD 6, b0.getLsbD 5, b0.getLsbD 4, b0.getLsbD 3, b0.getLsbD 2, b0.getLsbD 1, b0.getLsbD 0,
       b1.getLsbD 7, b1.getLsbD 6, b1.getLsbD 5, b1.getLsbD 4, b1.getLsbD 3, b1.getLsbD 2, b1.getLsbD 1, b1.getLsbD 0,
       false, false, false] ∧
    crc5Dec Config.spec b0 b1 = crc5Run Config.spec
      [b0.getLsbD 5, b0.getLsbD 4, b0.getLsbD 3, b0.getLsbD 2, b0.getLsbD 1, b0.getLsbD 0,
       b1.getLsbD 7, b1.getLsbD 6, b1.getLsbD 5, b1.getLsbD 4, b1.getLsbD 3, b1.getLsbD 2, b1.getLsbD 1, b1.getLsbD 0,
       false, false, false]

/-- Rule R76, which the spec marks as derived: both CRCs are the affine forms of the syndrome table, for every pair of
bytes, and its consequence. -/
def Obligations.CrcAffineTable : Prop :=
  (∀ b0 b1 : Byte,
    crc5Enc Config.spec b0 b1 = crc5EncTable b0 b1 ∧ crc5Dec Config.spec b0 b1 = crc5DecTable b0 b1) ∧
  (∀ x0 x1 y0 y1 : Byte,
    crc5Enc Config.spec (x0 ^^^ y0) (x1 ^^^ y1) =
      crc5Enc Config.spec x0 x1 ^^^ crc5Enc Config.spec y0 y1 ^^^ 0x07#5 ∧
    crc5Dec Config.spec (x0 ^^^ y0) (x1 ^^^ y1) =
      crc5Dec Config.spec x0 x1 ^^^ crc5Dec Config.spec y0 y1 ^^^ 0x16#5)

/-- Rule R77, which the spec marks as derived: the decode CRC does not depend on byte0[7:6], so that a change of those
bits of a received frame changes nothing that CHK_RD does. -/
def Obligations.DecodeCrcIgnoresTopTwoBits : Prop :=
  (∀ b0 b1 : Byte, crc5Dec Config.spec b0 b1 = crc5Dec Config.spec (b0 &&& 0x3F#8) b1) ∧
  ∀ (s : State) (b0 : Byte), b0 &&& 0x3F#8 = s.byte 0 &&& 0x3F#8 →
    ∃ t, exec .chkRd s = .next t ∧ exec .chkRd (s.memWrite 0 b0) = .next (t.memWrite 0 b0)

/-- Rule R78, which the spec marks as derived: the identity between the variants, that they agree on no frame, and the
register after byte0[7:6]. -/
def Obligations.DecodeIsEncodeOfMaskedByte : Prop :=
  (∀ b0 b1 : Byte, crc5Dec Config.spec b0 b1 = crc5Enc Config.spec (b0 &&& 0x3F#8) b1 ^^^ 0x11#5) ∧
  (∀ b0 b1 : Byte, crc5Enc Config.spec b0 b1 ≠ crc5Dec Config.spec b0 b1) ∧
  crc5Run Config.spec [false, false] = 0x16#5 ∧ crc5Run Config.spec [false, true] = 0x03#5 ∧
  crc5Run Config.spec [true, false] = 0x09#5 ∧ crc5Run Config.spec [true, true] = 0x1C#5

/-- Rule R79, which the spec marks as derived, as CHK_RD shows it: on a valid response every single-bit error of the 19
protected bits gives E_INTEGRITY, errors in byte0[7:6] and byte2[7:5] give OK, and of two protected bits exactly the
five listed pairs give OK. -/
def Obligations.CheckDetectsErrors : Prop :=
  ∀ s : State, s.HoldsValidResponse →
    (∀ e ∈ protectedBits, ∃ t, exec .chkRd (s.corrupt e) = .next t ∧ t.status = .eIntegrity) ∧
    (∀ e : ErrorPattern, e.e0 &&& 0x3F#8 = 0 → e.e1 = 0 → e.e2 &&& 0x1F#8 = 0 →
      ∃ t, exec .chkRd (s.corrupt e) = .next t ∧ t.status = .ok) ∧
    (∀ e ∈ protectedBits, ∀ f ∈ protectedBits, e ≠ f →
      ∃ t, exec .chkRd (s.corrupt (e.and f)) = .next t ∧
        (t.status = .ok ↔ (e, f) ∈ undetectedPairs ∨ (f, e) ∈ undetectedPairs))

/-- CRC_ENC and CRC_DEC complete in every state: RES takes the zero-extended CRC, which is at most 0x1F, STATUS is OK,
and nothing else changes (rules R74, R75). -/
def Obligations.CodecCommandsWriteRes : Prop :=
  ∀ (s : State) (b0 b1 : Byte),
    exec (.crcEnc b0 b1) s = .next { s with res := (crc5Enc Config.spec b0 b1).zeroExtend 8, status := .ok } ∧
    exec (.crcDec b0 b1) s = .next { s with res := (crc5Dec Config.spec b0 b1).zeroExtend 8, status := .ok } ∧
    (crc5Enc Config.spec b0 b1).zeroExtend 8 ≤ 0x1F#8 ∧ (crc5Dec Config.spec b0 b1).zeroExtend 8 ≤ 0x1F#8

/-- The counts in the corner cases of rules R74 and R75: each of the 32 results occurs for 2048 of the 65536 operand
pairs of CRC_ENC, and for 512 of the 16384 values of (B0[5:0], B1) of CRC_DEC. -/
def Obligations.CrcResultsAreUniform : Prop :=
  ∀ c : Crc5,
    ((Finset.univ : Finset (Fin 256 × Fin 256)).filter
      (fun p => crc5Enc Config.spec (BitVec.ofNat 8 p.1) (BitVec.ofNat 8 p.2) = c)).card = 2048 ∧
    ((Finset.univ : Finset (Fin 64 × Fin 256)).filter
      (fun p => crc5Dec Config.spec (BitVec.ofNat 8 p.1) (BitVec.ofNat 8 p.2) = c)).card = 512

/-! ### Configuration, headers and frame builders -/

/-- CFG completes in every state: it sets CRC_EN, CHIP_ADDR and STATUS and nothing else (rule R91), and `cfg 0, 0`
restores the reset configuration. -/
def Obligations.CfgSetsConfiguration : Prop :=
  (∀ (s : State) (en : Bool) (chip : ChipAddr),
    exec (.cfg en chip) s = .next { s with crcEn := en, chipAddr := chip, status := .ok }) ∧
  ∀ s : State, exec (.cfg false 0#2) s =
    .next { s with crcEn := State.reset.crcEn, chipAddr := State.reset.chipAddr, status := .ok }

/-- Rule R90: the header is `rw : addr : CHIP_ADDR`, rw in bit 7, addr in bits [6:2], CHIP_ADDR in bits [1:0], and a
builder reads CHIP_ADDR at the time the frame is built. -/
def Obligations.HeaderFields : Prop :=
  (∀ (rw : Kind) (addr : RegAddr) (chip : ChipAddr),
    header Config.spec.frameLayout rw addr chip = Kind.code rw ++ addr ++ chip ∧
    (header Config.spec.frameLayout rw addr chip).extractLsb' 7 1 = Kind.code rw ∧
    (header Config.spec.frameLayout rw addr chip).extractLsb' 2 5 = addr ∧
    (header Config.spec.frameLayout rw addr chip).extractLsb' 0 2 = chip) ∧
  ∀ (s : State) (addr : RegAddr) (val : Byte),
    (∃ t, exec (.buildWr addr val) s = .next t ∧ t.byte 0 = header .doc .wr addr s.chipAddr) ∧
    (∃ t, exec (.buildWrr addr) s = .next t ∧ t.byte 0 = header .doc .wr addr s.chipAddr) ∧
    (∃ t, exec (.buildRd addr) s = .next t ∧ t.byte 0 = header .doc .rd addr s.chipAddr)

/-- BUILD_WR and BUILD_WRR complete in every state and leave a write frame with the operand's value, or RES, as rules
R92 and R94 say, CRC on and off; every other state element is unchanged. -/
def Obligations.WriteBuildersLeaveFrame : Prop :=
  ∀ (s : State) (addr : RegAddr) (val : Byte),
    (∃ t, exec (.buildWr addr val) s = .next t ∧ WriteFrameBuilt s t addr val) ∧
    (∃ t, exec (.buildWrr addr) s = .next t ∧ WriteFrameBuilt s t addr s.res)

/-- BUILD_RD completes in every state and leaves a read request as rule R96 says, CRC on and off, BUF[2] being 0x00 with
CRC off; every other state element is unchanged. -/
def Obligations.ReadBuilderLeavesRequest : Prop :=
  ∀ (s : State) (addr : RegAddr), ∃ t, exec (.buildRd addr) s = .next t ∧ ReadFrameBuilt s t addr

/-- Rules R93 and R95, which the spec marks as derived: the bytes the next exchange sends after each builder, a function
of the configuration at build time and the operands, and byte2[7:5] of a write frame is 0. -/
def Obligations.WireImageOfBuiltFrame : Prop :=
  (∀ (s : State) (addr : RegAddr) (val : Byte),
    (∃ t, exec (.buildWr addr val) s = .next t ∧ t.pendingFrame = wireImage s 1#1 addr val) ∧
    (∃ t, exec (.buildWrr addr) s = .next t ∧ t.pendingFrame = wireImage s 1#1 addr s.res) ∧
    (∃ t, exec (.buildRd addr) s = .next t ∧ t.pendingFrame = wireImage s 0#1 addr 0x00#8)) ∧
  ∀ b0 b1 : Byte, (crcByte (crc5Enc Config.spec b0 b1)).extractLsb' 5 3 = 0#3

/-- Rule R144, which the spec marks as derived: a CFG issued after a build changes neither the frame that waits nor what
XFER and CHK_RD then do, and the next build, by each of the three builders, uses the new configuration. -/
def Obligations.CfgDoesNotChangeBuiltFrame : Prop :=
  ∀ (s : State) (en : Bool) (chip : ChipAddr),
    ∃ c, exec (.cfg en chip) s = .next c ∧ c.pendingFrame = s.pendingFrame ∧ c.len = s.len ∧
      (∀ t, exec .xfer s = .next t → exec .xfer c = .next { t with crcEn := en, chipAddr := chip }) ∧
      (∀ f, exec .xfer s = .fault f → exec .xfer c = .fault f) ∧
      (∀ t, exec .chkRd s = .next t → exec .chkRd c = .next { t with crcEn := en, chipAddr := chip }) ∧
      (∀ (addr : RegAddr) (val : Byte),
        (∃ t, exec (.buildWr addr val) c = .next t ∧ t.byte 0 = 1#1 ++ addr ++ chip ∧ (t.len = .three ↔ en = true)) ∧
        (∃ t, exec (.buildWrr addr) c = .next t ∧ t.byte 0 = 1#1 ++ addr ++ chip ∧ (t.len = .three ↔ en = true)) ∧
        (∃ t, exec (.buildRd addr) c = .next t ∧ t.byte 0 = 0#1 ++ addr ++ chip ∧ (t.len = .three ↔ en = true)))

/-! ### Exchange and check -/

/-- XFER of a read frame completes when the Transport answers code 0: the response overwrites the request byte by byte,
one exchange of LEN bytes is on the record, and nothing else changes (rule R97). The record of the wire, the known moves
and the draw counter are the model's own (log entries 3, 4 and 5). -/
def Obligations.XferReadTakesResponse : Prop :=
  ∀ (s : State) (r0 r1 r2 : Byte), s.phase = .txReady → s.kind = .rd → (s.len = .two ∨ s.len = .three) →
    s.transportAnswers s.pendingFrame = .answer 0#32 r0 r1 r2 →
    ∃ t, exec .xfer s = .next t ∧ t.byte 0 = r0 ∧ t.byte 1 = r1 ∧
      t.byte 2 = (if s.len = .three then r2 else s.byte 2) ∧
      t = { s with buf := t.buf, phase := .rxDone, terr := 0#32, status := .ok,
                   answers := s.answers.tail, draws := s.draws + 1,
                   wire := s.wire ++ [⟨s.pendingFrame, 0#32, if s.len = .three then [r0, r1, r2] else [r0, r1]⟩] }

/-- XFER of a write frame completes when the Transport answers code 0: the response is discarded, BUF is unchanged and
PHASE is IDLE (rule R97). The record of the wire, the known moves and the draw counter are the model's own (log entries
3, 4 and 5). -/
def Obligations.XferWriteDiscardsResponse : Prop :=
  ∀ (s : State) (r0 r1 r2 : Byte), s.phase = .txReady → s.kind = .wr → (s.len = .two ∨ s.len = .three) →
    s.transportAnswers s.pendingFrame = .answer 0#32 r0 r1 r2 →
    exec .xfer s = .next { s with phase := .idle, terr := 0#32, status := .ok,
                                  answers := s.answers.tail, draws := s.draws + 1,
                                  wire := s.wire ++ [⟨s.pendingFrame, 0#32, if s.len = .three then [r0, r1, r2] else [r0, r1]⟩] }

/-- XFER completes with E_TRANSPORT when the Transport answers a nonzero code: TERR holds the code, PHASE is IDLE, and
BUF is unchanged but for the first LEN bytes of a read frame, which are draws (rule R97). It holds for every value of
the draws (log entry 4). The record of the wire, the known moves and the draw counter are the model's own (log entries
3, 4 and 5). -/
def Obligations.XferReportsTransportError : Prop :=
  ∀ (s : State) (code : TCode) (r0 r1 r2 : Byte), s.phase = .txReady → (s.len = .two ∨ s.len = .three) →
    s.transportAnswers s.pendingFrame = .answer code r0 r1 r2 → code ≠ 0#32 →
    ∃ t, exec .xfer s = .next t ∧ (s.kind = .wr → t.buf = s.buf) ∧ (s.len = .two → t.byte 2 = s.byte 2) ∧
      (s.kind = .rd → t.byte 0 = Config.anyByte (s.draws + 1) ∧ t.byte 1 = Config.anyByte (s.draws + 2) ∧
        (s.len = .three → t.byte 2 = Config.anyByte (s.draws + 3))) ∧
      t = { s with buf := t.buf, phase := .idle, terr := code, status := .eTransport,
                   answers := s.answers.tail, draws := t.draws, wire := s.wire ++ [⟨s.pendingFrame, code, []⟩] } ∧
      t.draws = s.draws + 1 + (match s.kind with | .rd => FrameLen.bytes s.len | .wr => 0)

/-- XFER in a phase other than TX_READY, and CHK_RD in a phase other than RX_DONE, write E_SEQUENCE to STATUS and change
nothing else: no exchange takes place (rules R97, R98, R120). -/
def Obligations.OutOfSequenceChangesOnlyStatus : Prop :=
  ∀ s : State,
    (s.phase ≠ .txReady → exec .xfer s = .next { s with status := .eSequence }) ∧
    (s.phase ≠ .rxDone → exec .chkRd s = .next { s with status := .eSequence })

/-- A Transport that never answers leaves XFER stuck: no next state and no error code (rule R147). That this is a fault
by name is the model's choice (log entry 3). -/
def Obligations.SilentTransportStopsXfer : Prop :=
  ∀ s : State, s.phase = .txReady → (s.len = .two ∨ s.len = .three) →
    s.transportAnswers s.pendingFrame = .never → exec .xfer s = .fault .transportNeverAnswers

/-- CHK_RD completes in RX_DONE: with LEN = 3 it compares CRC5_DEC of BUF[0] and BUF[1] with BUF[2][4:0] and, on a
mismatch, leaves RES and raises E_INTEGRITY; else RES takes BUF[1]. PHASE is IDLE and nothing else changes, so a second
CHK_RD raises E_SEQUENCE (rule R98). -/
def Obligations.ChkRdDeliversOrRejects : Prop :=
  ∀ s : State, s.phase = .rxDone →
    ((s.len = .three → (crc5Dec Config.spec (s.byte 0) (s.byte 1)) = (s.byte 2).extractLsb' 0 5) →
      exec .chkRd s = .next { s with phase := .idle, res := s.byte 1, status := .ok }) ∧
    (s.len = .three → (crc5Dec Config.spec (s.byte 0) (s.byte 1)) ≠ (s.byte 2).extractLsb' 0 5 →
      exec .chkRd s = .next { s with phase := .idle, status := .eIntegrity }) ∧
    ∀ t, exec .chkRd s = .next t → exec .chkRd t = .next { t with status := .eSequence }

/-- Rule R5: the spec's policy is IGNORE, under which only byte2[4:0] is compared; under STRICT a nonzero byte2[7:5] is
itself a mismatch. -/
def Obligations.ReceivedCrcPolicies : Prop :=
  Config.spec.rxCrcHighPolicy = .ignore ∧
  ∀ (c : Crc5) (received : Byte),
    (rxCrcMatches .ignore c received = true ↔ received.extractLsb' 0 5 = c) ∧
    (rxCrcMatches .strict c received = true ↔ received.extractLsb' 0 5 = c ∧ received.extractLsb' 5 3 = 0#3)

/-! ### MERGE and NOP -/

/-- Rule R99, the whole of MERGE: its result bit by bit and all it leaves unchanged, its corner cases, its encoding and
its one exception, and its worked example. -/
def Obligations.MergeRule : Prop :=
  (∀ (s : State) (mask mval : Byte), ∃ v : Byte,
    exec (.merge mask mval) s = .next { s with res := v, status := .ok } ∧
    (∀ i < 8, v.getLsbD i = if mask.getLsbD i then mval.getLsbD i else s.res.getLsbD i) ∧
    (mask = 0x00#8 → v = s.res) ∧ (mask = 0xFF#8 → v = mval) ∧
    exec (.merge mask mval) { s with res := v, status := .ok } = .next { s with res := v, status := .ok }) ∧
  (∀ (w : CmdWord) (s : State), CmdWord.op w = 0x8#4 →
    (w &&& 0xFFFF0000#32 = 0x80000000#32 →
      execWord w s = exec (.merge (w.extractLsb' 8 8) (w.extractLsb' 0 8)) s) ∧
    (w.extractLsb' 16 12 ≠ 0#12 → execWord w s = .next { s with status := .eInvalid })) ∧
  ∀ s : State, s.res = 0xA5#8 → execWord 0x80000F03#32 s = .next { s with res := 0xA3#8, status := .ok }

/-- Rule R100, the whole of NOP: it writes OK to STATUS and nothing else, its word is 0x00000000 and no other with that
OP, and after an E_SEQUENCE it sets STATUS to OK. -/
def Obligations.NopRule : Prop :=
  (∀ s : State, exec .nop s = .next { s with status := .ok } ∧ execWord 0x00000000#32 s = exec .nop s) ∧
  (∀ (w : CmdWord) (s : State), CmdWord.op w = 0x0#4 → w.extractLsb' 0 28 ≠ 0#28 →
    execWord w s = .next { s with status := .eInvalid }) ∧
  ∀ s : State, s.status = .eSequence → ∃ t, execWord 0x00000000#32 s = .next t ∧ t.status = .ok

/-! ### Words: decoding and encoding -/

/-- Decoding the word of any command gives the command, every operand at every value. -/
def Obligations.DecodeOfEncode : Prop :=
  ∀ i : Instr, decode (encode i) = .command i

/-- A word that decodes to a command is that command's word: no bit of the word is dropped. -/
def Obligations.EncodeOfDecode : Prop :=
  ∀ (w : CmdWord) (i : Instr), decode w = .command i → encode i = w

/-- At most one row of the opcode map matches a word (rule R56: "The rows are disjoint"). -/
def Obligations.OpcodeRowsDisjoint : Prop :=
  ∀ (w : CmdWord) (j k : Nat) (r q : OpRow), opcodeMap[j]? = some r → opcodeMap[k]? = some q →
    w &&& r.mask = r.pattern → w &&& q.mask = q.pattern → j = k

/-- Rule R57: a word that matches no row raises E_INVALID and changes no state other than STATUS; the words with OP 0xA
to 0xF are such; and every word is either the word of exactly one command or illegal. -/
def Obligations.IllegalWordsChangeOnlyStatus : Prop :=
  (∀ (w : CmdWord) (s : State), (∀ r ∈ opcodeMap, w &&& r.mask ≠ r.pattern) →
    execWord w s = .next { s with status := .eInvalid }) ∧
  (∀ w : CmdWord, 0xA#4 ≤ CmdWord.op w → ∀ r ∈ opcodeMap, w &&& r.mask ≠ r.pattern) ∧
  ∀ w : CmdWord, (∃! i : Instr, encode i = w) ∨ ((∃ why, decode w = .illegal why) ∧ ∀ i : Instr, encode i ≠ w)

/-- Words of rule R60's and 95_test_vectors.md's examples, one for each command, decode to it. -/
def Obligations.ExampleWordsDecode : Prop :=
  decode 0x00000000#32 = .command .nop ∧ decode 0x10050000#32 = .command (.cfg true 2#2) ∧
  decode 0x20850F00#32 = .command (.crcEnc 0x85#8 0x0F#8) ∧ decode 0x30145A00#32 = .command (.crcDec 0x14#8 0x5A#8) ∧
  decode 0x4005AB00#32 = .command (.buildWr 0x05#5 0xAB#8) ∧ decode 0x501F0000#32 = .command (.buildRd 0x1F#5) ∧
  decode 0x60000000#32 = .command .xfer ∧ decode 0x70000000#32 = .command .chkRd ∧
  decode 0x80000F03#32 = .command (.merge 0x0F#8 0x03#8) ∧ decode 0x90020000#32 = .command (.buildWrr 0x02#5)

/-- The encoding column of rule R60: a line whose operands fit their fields is the word of the formula, and a line with
one that does not is refused, not truncated. -/
def Obligations.AssemblerEncodings : Prop :=
  (∀ en chip : Nat, Source.assemble (.cfg en chip) =
    if en < 2 ∧ chip < 4 then
      some [0x10000000#32 ||| (BitVec.ofNat 32 chip <<< 17) ||| (BitVec.ofNat 32 en <<< 16)] else none) ∧
  (∀ b0 b1 : Nat, Source.assemble (.crcEnc b0 b1) =
    if b0 < 256 ∧ b1 < 256 then
      some [0x20000000#32 ||| (BitVec.ofNat 32 b0 <<< 16) ||| (BitVec.ofNat 32 b1 <<< 8)] else none) ∧
  (∀ b0 b1 : Nat, Source.assemble (.crcDec b0 b1) =
    if b0 < 256 ∧ b1 < 256 then
      some [0x30000000#32 ||| (BitVec.ofNat 32 b0 <<< 16) ||| (BitVec.ofNat 32 b1 <<< 8)] else none) ∧
  (∀ addr val : Nat, Source.assemble (.buildWr addr val) =
    if addr < 32 ∧ val < 256 then
      some [0x40000000#32 ||| (BitVec.ofNat 32 addr <<< 16) ||| (BitVec.ofNat 32 val <<< 8)] else none) ∧
  (∀ addr : Nat, Source.assemble (.buildRd addr) =
    if addr < 32 then some [0x50000000#32 ||| (BitVec.ofNat 32 addr <<< 16)] else none) ∧
  (∀ mask val : Nat, Source.assemble (.merge mask val) =
    if mask < 256 ∧ val < 256 then
      some [0x80000000#32 ||| (BitVec.ofNat 32 mask <<< 8) ||| BitVec.ofNat 32 val] else none) ∧
  (∀ addr : Nat, Source.assemble (.buildWrr addr) =
    if addr < 32 then some [0x90000000#32 ||| (BitVec.ofNat 32 addr <<< 16)] else none) ∧
  Source.assemble .nop = some [0x00000000#32] ∧ Source.assemble .xfer = some [0x60000000#32] ∧
  Source.assemble .chkRd = some [0x70000000#32]

/-- The expansion column of rule R61, as command words: each pseudo-instruction is the words of its commands in order,
and one with an operand that does not fit is refused. -/
def Obligations.PseudoInstructionExpansions : Prop :=
  (∀ addr val : Nat, Source.assemble (.write addr val) =
    if addr < 32 ∧ val < 256 then
      some [0x40000000#32 ||| (BitVec.ofNat 32 addr <<< 16) ||| (BitVec.ofNat 32 val <<< 8), 0x60000000#32]
    else none) ∧
  (∀ addr : Nat, Source.assemble (.read addr) =
    if addr < 32 then
      some [0x50000000#32 ||| (BitVec.ofNat 32 addr <<< 16), 0x60000000#32, 0x70000000#32] else none) ∧
  (∀ addr mask val : Nat, Source.assemble (.update addr mask val) =
    if addr < 32 ∧ mask < 256 ∧ val < 256 then
      some [0x50000000#32 ||| (BitVec.ofNat 32 addr <<< 16), 0x60000000#32, 0x70000000#32,
            0x80000000#32 ||| (BitVec.ofNat 32 mask <<< 8) ||| BitVec.ofNat 32 val,
            0x90000000#32 ||| (BitVec.ofNat 32 addr <<< 16), 0x60000000#32]
    else none)

/-! ### Steps -/

/-- When a command word stands at the port, a step runs the command it decodes to, on the state with the Host's index
moved on by one; an illegal word leaves E_INVALID in STATUS (rules R12, R23, R57). That the port is a list of inputs and
an index in the state is the model's choice (log entry 1). -/
def Obligations.StepRunsDecodedCommand : Prop :=
  ∀ (s : State) (w : CmdWord), s.input = some (.command w) →
    (∀ i, decode w = .command i → step s = exec i { s with index := s.index + 1 }) ∧
    (∀ why, decode w = .illegal why → step s = .next { s with index := s.index + 1, status := .eInvalid })

/-- The word of any command, placed at the port, is what the very next step runs, from any state. That a word is placed
in the list of inputs is the model's choice (log entry 1). -/
def Obligations.PlacedCommandRunsNext : Prop :=
  ∀ (s : State) (i : Instr),
    step (s.withFetchWord 32 (encode i).toNat) =
      exec i { s.withFetchWord 32 (encode i).toNat with index := s.index + 1 }

/-- The Host's index increases by one in each step, and no command changes it or the inputs (rule R12). That the inputs
are a list in the state is the model's choice (log entry 1), and so is that a reset is a step which moves the index on
as a command does (log entry 2): rule R12 speaks of commands only. -/
def Obligations.StepMovesIndexByOne : Prop :=
  ∀ s t : State, step s = .next t → t.index = s.index + 1 ∧ t.inputs = s.inputs

/-- Rule R140: every state element has its reset value in the reset state. -/
def Obligations.ResetStateHasResetValues : Prop :=
  State.reset.crcEn = false ∧ State.reset.chipAddr = 0#2 ∧ State.reset.byte 0 = 0x00#8 ∧
  State.reset.byte 1 = 0x00#8 ∧ State.reset.byte 2 = 0x00#8 ∧ State.reset.len = .zero ∧ State.reset.res = 0x00#8 ∧
  State.reset.status = .ok ∧ State.reset.terr = 0#32 ∧ State.reset.phase = .idle ∧ State.reset.kind = .rd

/-- A reset between commands gives every state element its reset value, from any state (rules R140, R141). That it is an
input like a command, and leaves the Transport and the record of the wire alone, is the model's choice (log entry 2). -/
def Obligations.ResetSetsEveryElement : Prop :=
  ∀ s : State, s.input = some .reset →
    step s = .next { State.reset with inputs := s.inputs, index := s.index + 1, answers := s.answers,
                                      draws := s.draws, wire := s.wire }

/-- Rule R122: which commands are legal in which PHASE, and every transition of PHASE. -/
def Obligations.PhaseTransitions : Prop :=
  ∀ (i : Instr) (s t : State), exec i s = .next t →
    (t.status = .eSequence ↔ legalIn i s.phase = false) ∧
    t.phase = (if legalIn i s.phase then nextPhase i s.phase s.kind t.status else s.phase)

/-- Rule R121: a command that raises E_INVALID or E_SEQUENCE changes STATUS and nothing else; one that raises
E_INTEGRITY changes PHASE and STATUS; one that raises E_TRANSPORT changes TERR, PHASE, STATUS and, for a read frame, the
bytes of the frame, and the exchange has taken place. The record of the wire, the known moves and the draw counter are
the model's own (log entries 3, 4 and 5). -/
def Obligations.ErrorsArePrecise : Prop :=
  ∀ (w : CmdWord) (s t : State), execWord w s = .next t →
    (t.status = .eInvalid ∨ t.status = .eSequence → t = { s with status := t.status }) ∧
    (t.status = .eIntegrity → t = { s with phase := .idle, status := .eIntegrity }) ∧
    (t.status = .eTransport →
      t = { s with buf := t.buf, terr := t.terr, phase := .idle, status := .eTransport,
                   answers := s.answers.tail, draws := t.draws, wire := s.wire ++ [⟨s.pendingFrame, t.terr, []⟩] } ∧
      t.terr ≠ 0#32 ∧ (s.kind = .wr → t.buf = s.buf) ∧ (s.len = .two → t.byte 2 = s.byte 2))

/-- STATUS is an output only: no step's behaviour depends on it (rule R25, which the spec marks as derived). -/
def Obligations.StatusIsNeverRead : Prop :=
  ∀ (s : State) (st : Status), step { s with status := st } = step s

/-- The "written by" column of 10_state.md section 2: no other command changes the state element. STATUS has no clause,
since its writers are all the commands. The record of the wire, the known moves, the draw counter, the inputs and the
index are the model's own (log entries 1, 3, 4 and 5). -/
def Obligations.OnlyTheirWritersChangeElements : Prop :=
  ∀ (i : Instr) (s t : State), exec i s = .next t →
    ((∀ en chip, i ≠ .cfg en chip) → t.crcEn = s.crcEn ∧ t.chipAddr = s.chipAddr) ∧
    ((∀ a v, i ≠ .buildWr a v) → (∀ a, i ≠ .buildWrr a) → (∀ a, i ≠ .buildRd a) →
      t.len = s.len ∧ t.kind = s.kind ∧ (i ≠ .xfer → t.buf = s.buf)) ∧
    ((∀ a b, i ≠ .crcEnc a b) → (∀ a b, i ≠ .crcDec a b) → i ≠ .chkRd → (∀ m v, i ≠ .merge m v) → t.res = s.res) ∧
    ((∀ a v, i ≠ .buildWr a v) → (∀ a, i ≠ .buildWrr a) → (∀ a, i ≠ .buildRd a) → i ≠ .xfer → i ≠ .chkRd →
      t.phase = s.phase) ∧
    (i ≠ .xfer → t.terr = s.terr ∧ t.wire = s.wire ∧ t.answers = s.answers ∧ t.draws = s.draws) ∧
    t.inputs = s.inputs ∧ t.index = s.index

/-- Every exchange on the wire is one XFER in TX_READY, which makes exactly one, of the bytes that waited, and no
command reorders, merges or drops one (rules R37, R97). The record of the wire is the model's own (log entry 5). -/
def Obligations.OneExchangePerXfer : Prop :=
  ∀ s t : State, step s = .next t →
    (s.phase = .txReady ∧ s.input = some (.command 0x60000000#32) →
      ∃ rx, t.wire = s.wire ++ [⟨s.pendingFrame, t.terr, rx⟩]) ∧
    (¬ (s.phase = .txReady ∧ s.input = some (.command 0x60000000#32)) → t.wire = s.wire)

/-- The bits of a byte list on the wire, each byte from bit 7 down, make the same bytes again at the same indices, and a
transaction drives chip-select, exactly those bits, and chip-select again (rules R32, R35). -/
def Obligations.WireBitsMakeTheBytes : Prop :=
  (∀ tx : List Byte, receivedBytes tx.length (wireBits tx) = tx ∧ (wireBits tx).length = 8 * tx.length) ∧
  ∀ tx : List Byte,
    transactionEvents tx = [WireEvent.select] ++ (wireBits tx).map WireEvent.bit ++ [WireEvent.deselect] ∧
    ∀ (k j : Nat) (b : Byte), tx[k]? = some b → j < 8 → (wireBits tx)[8 * k + j]? = some (b.getLsbD (7 - j))

/-- The canonical form of the buffer, the model's choice (log entry 11), is unique: two buffers in it that read alike
are equal. -/
def Obligations.CanonicalBuffersAreEqual : Prop :=
  ∀ m n : Memory, Memory.wf m = true → Memory.wf n = true → (∀ i : Fin 3, Memory.read m i = Memory.read n i) → m = n

/-! ### Invariants -/

/-- The good states: the sequence invariants of rule R22, the canonical buffer, a well-formed frame whenever one waits,
and only well-formed frames on the wire. Every step keeps them, from every good state. The canonical form and the record
are the model's own (log entries 5 and 11). -/
def Obligations.StepKeepsInvariant : Prop :=
  ∀ s t : State, s.Inv → step s = .next t → t.Inv

/-- The reset state is good, whatever inputs and known moves are to come. The three fields that are free here are the
model's own (log entries 1, 3 and 4). -/
def Obligations.ResetMeetsInvariant : Prop :=
  ∀ (inputs : List PortInput) (answers : List TransportMove) (draws : Nat),
    State.Inv { State.reset with inputs := inputs, answers := answers, draws := draws }

/-- Rule R22, which the spec marks as derived: its five invariants, in the codes the outputs show. A reachable state is
reset, then steps, with any inputs, known moves and draws (log entries 1, 3 and 4). -/
def Obligations.ReachableStatesMeetR22 : Prop :=
  ∀ s : State, Reachable s →
    (s.outputs.len = 0#2 ∨ s.outputs.len = 2#2 ∨ s.outputs.len = 3#2) ∧
    (s.outputs.phase ≠ 0#2 → s.outputs.len = 2#2 ∨ s.outputs.len = 3#2) ∧
    (s.outputs.phase = 2#2 → s.outputs.kind = 0#1) ∧
    s.outputs.status ≤ 4#3 ∧
    (∀ (addr : RegAddr) (val : Byte) (t : State),
      exec (.buildWr addr val) s = .next t ∨ exec (.buildWrr addr) s = .next t ∨ exec (.buildRd addr) s = .next t →
      (t.outputs.len = 3#2 ↔ s.outputs.crcEn = 1#1))

/-- A step from a good state never meets the fault that only unreachable states raise; the one fault left is a Transport
that never answers (rule R147, log entry 10). -/
def Obligations.GoodStatesAreSafe : Prop :=
  ∀ s : State, s.Inv → SafeOutcome (step s)

/-! ### Transactions -/

/-- Rule R101, `write a, v`, which the spec marks as derived: issued from any state, with any answer of the Transport,
it puts the image of rule R93 on the wire and ends with the Transport's code in TERR, PHASE IDLE, and STATUS by the
code. The record of the wire is the model's own (log entry 5). -/
def Obligations.WriteTransaction : Prop :=
  ∀ (s : State) (addr : RegAddr) (val : Byte) (code : TCode) (r0 r1 r2 : Byte),
    s.transportAnswers (wireImage s 1#1 addr val) = .answer code r0 r1 r2 →
    ∃ t rx, issueSource (.write addr.toNat val.toNat) s = .next t ∧
      t.wire = s.wire ++ [⟨wireImage s 1#1 addr val, code, rx⟩] ∧ t.phase = .idle ∧ t.terr = code ∧
      t.status = (if code = 0#32 then .ok else .eTransport) ∧ t.res = s.res

/-- Rule R101, `read a`, which the spec marks as derived: it puts the image of rule R95 on the wire and ends in the
three ways the rule lists. The record of the wire is the model's own (log entry 5). -/
def Obligations.ReadTransaction : Prop :=
  ∀ (s : State) (addr : RegAddr) (code : TCode) (r0 r1 r2 : Byte),
    s.transportAnswers (wireImage s 0#1 addr 0x00#8) = .answer code r0 r1 r2 →
    ∃ t rx, issueSource (.read addr.toNat) s = .next t ∧
      t.wire = s.wire ++ [⟨wireImage s 0#1 addr 0x00#8, code, rx⟩] ∧ t.phase = .idle ∧ t.terr = code ∧
      (code ≠ 0#32 → t.status = .eTransport ∧ t.res = s.res) ∧
      (code = 0#32 → s.crcEn = true → crc5Dec Config.spec r0 r1 ≠ r2.extractLsb' 0 5 →
        t.status = .eIntegrity ∧ t.res = s.res) ∧
      (code = 0#32 → (s.crcEn = true → crc5Dec Config.spec r0 r1 = r2.extractLsb' 0 5) →
        t.status = .ok ∧ t.res = r1)

/-- Rule R101, `update a, m, v`, which the spec marks as derived: if its read ends with an error, the update ends there
and sends no write frame; if the read ends OK with RES = r, the update sends the write frame of `(r & ~m) | (v & m)` and
ends by that write's code. The record of the wire is the model's own (log entry 5). -/
def Obligations.UpdateTransaction : Prop :=
  ∀ (s u : State) (addr : RegAddr) (mask val : Byte), issueSource (.read addr.toNat) s = .next u →
    (u.status ≠ .ok → issueSource (.update addr.toNat mask.toNat val.toNat) s = .next u) ∧
    (∀ (code : TCode) (r0 r1 r2 : Byte), u.status = .ok →
      u.transportAnswers (wireImage u 1#1 addr ((u.res &&& ~~~mask) ||| (val &&& mask))) = .answer code r0 r1 r2 →
      ∃ t rx, issueSource (.update addr.toNat mask.toNat val.toNat) s = .next t ∧
        t.wire = u.wire ++ [⟨wireImage u 1#1 addr ((u.res &&& ~~~mask) ||| (val &&& mask)), code, rx⟩] ∧
        t.res = (u.res &&& ~~~mask) ||| (val &&& mask) ∧ t.phase = .idle ∧ t.terr = code ∧
        t.status = (if code = 0#32 then .ok else .eTransport))

/-- Rule R102, which the spec marks as derived: the value w that an update writes keeps every bit outside the mask as it
was read and takes every bit under the mask from the operand: whenever the read ends OK and the whole update ends, be
it OK or with the write's transport error, the last frame sent carries w. The record of the wire is the model's own (log entry 5). -/
def Obligations.UpdatePreservesUnmaskedBits : Prop :=
  ∀ (s u t : State) (addr : RegAddr) (mask val : Byte),
    issueSource (.read addr.toNat) s = .next u → u.status = .ok →
    issueSource (.update addr.toNat mask.toNat val.toNat) s = .next t →
    ∃ e w, t.wire = u.wire ++ [e] ∧ e.tx[1]? = some w ∧
      w &&& ~~~mask = u.res &&& ~~~mask ∧ w &&& mask = val &&& mask

/-- A list of words whose every command ends OK when the Host issues it one by one has the same end when it stands at
the port and the machine steps through it: only the Host's inputs and index differ (rules R12, R61). The inputs and the
index are the model's own (log entries 1 and 17). -/
def Obligations.SteppedProgramAgreesWithIssue : Prop :=
  ∀ (words : List CmdWord) (s t : State), issue words s = .next t → (words = [] ∨ t.status = .ok) →
    Host.Core.run Sys2Proof.core words.length (s.withProgram words) =
      .next { t with inputs := words.map PortInput.command, index := words.length }
end

