-- ==== Sys2Proof/Laws/Crc.lean ====
section
/-! SUPPORT. The laws of the CRC run (rules R70, R71) and of the bits of a byte (rule R6). -/

namespace Sys2Proof.Machine

/-- As many bits as are asked for. -/
@[simp] theorem msbBits_length (n : Nat) (b : Byte) : (msbBits n b).length = n := by
  induction n with
  | zero => rfl
  | succ n ih => simp [msbBits, ih]

/-- The bits of a byte, bit 7 first. -/
theorem msbBits_eight (b : Byte) :
    msbBits 8 b = [b.getLsbD 7, b.getLsbD 6, b.getLsbD 5, b.getLsbD 4, b.getLsbD 3, b.getLsbD 2, b.getLsbD 1,
      b.getLsbD 0] := rfl

/-- A run over two lists goes on from where the first ends. -/
theorem crc5Run_append (p : Config.Params) (l m : List Bool) :
    crc5Run p (l ++ m) = m.foldl (crc5Step p) (crc5Run p l) := by
  simp [crc5Run, List.foldl_append]

/-- One step is linear over GF(2) in the register and the incoming bit. -/
theorem crc5Step_xor (r q : Crc5) (d e : Bool) :
    crc5Step Config.spec (r ^^^ q) (d ^^ e) = crc5Step Config.spec r d ^^^ crc5Step Config.spec q e := by
  revert r q d e
  decide

end Sys2Proof.Machine
end

