-- ==== Sys2Proof/Laws/Decode.lean ====
section
/-! SUPPORT. The bits and the fields of a word in the format of rule R54, said once: encoding and decoding are compared
through these lemmas. -/

namespace Sys2Proof

/-- Every bit of a word in the format of rule R54. -/
theorem cmdWord_getLsbD (op : BitVec 4) (a b c : Byte) (i : Nat) :
    (cmdWord op a b c).getLsbD i =
      if i < 8 then c.getLsbD i else if i < 16 then b.getLsbD (i - 8) else if i < 24 then a.getLsbD (i - 16)
      else if i < 28 then false else op.getLsbD (i - 28) := by
  have h : (cmdWord op a b c).getLsbD i = (op ++ 0#4 ++ a ++ b ++ c : BitVec (4 + 4 + 8 + 8 + 8)).getLsbD i := rfl
  rw [h]
  simp only [BitVec.getLsbD_append, BitVec.getLsbD_zero, Nat.sub_sub]
  repeat' split
  all_goals first | rfl | omega

/-- The bits of operand A of the frame builders. -/
theorem addrOperand_getLsbD (addr : RegAddr) (i : Nat) :
    (addrOperand addr).getLsbD i = addr.getLsbD i := by
  have h : (addrOperand addr).getLsbD i = (0#3 ++ addr : BitVec (3 + 5)).getLsbD i := rfl
  rw [h]
  simp only [BitVec.getLsbD_append, BitVec.getLsbD_zero]
  split
  · rfl
  · exact (BitVec.getLsbD_of_ge _ _ (by omega)).symm

/-- The bits of operand A of CFG. -/
theorem cfgOperand_getLsbD (en : Bool) (chip : ChipAddr) (i : Nat) :
    (0#5 ++ chip ++ BitVec.ofBool en : Byte).getLsbD i = if i < 1 then en else chip.getLsbD (i - 1) := by
  have h : (0#5 ++ chip ++ BitVec.ofBool en : Byte).getLsbD i = (0#5 ++ chip ++ BitVec.ofBool en : BitVec (5 + 2 + 1)).getLsbD i := rfl
  rw [h]
  simp only [BitVec.getLsbD_append, BitVec.getLsbD_zero]
  by_cases h1 : i < 1
  · have : i = 0 := by omega
    subst this; simp
  · simp only [h1, if_false]
    split
    · rfl
    · exact (BitVec.getLsbD_of_ge _ _ (by omega)).symm

/-! ### The fields of a word in the format -/

@[simp] theorem op_cmdWord (op : BitVec 4) (a b c : Byte) : CmdWord.op (cmdWord op a b c) = op := by
  apply BitVec.eq_of_getLsbD_eq; intro k hk
  simp only [CmdWord.op, BitVec.getLsbD_extractLsb', cmdWord_getLsbD, hk, decide_true, Bool.true_and]
  split; omega; split; omega; split; omega; split; omega; congr 1; omega
@[simp] theorem rsv_cmdWord (op : BitVec 4) (a b c : Byte) : CmdWord.rsv (cmdWord op a b c) = 0x0#4 := by
  apply BitVec.eq_of_getLsbD_eq; intro k hk
  simp only [CmdWord.rsv, BitVec.getLsbD_extractLsb', cmdWord_getLsbD, hk, decide_true, Bool.true_and]
  split; omega; split; omega; split; omega; split; exact BitVec.getLsbD_zero.symm; omega
@[simp] theorem fieldA_cmdWord (op : BitVec 4) (a b c : Byte) : CmdWord.fieldA (cmdWord op a b c) = a := by
  apply BitVec.eq_of_getLsbD_eq; intro k hk
  simp only [CmdWord.fieldA, BitVec.getLsbD_extractLsb', cmdWord_getLsbD, hk, decide_true, Bool.true_and]
  split; omega; split; omega; split; congr 1; omega; omega
@[simp] theorem fieldB_cmdWord (op : BitVec 4) (a b c : Byte) : CmdWord.fieldB (cmdWord op a b c) = b := by
  apply BitVec.eq_of_getLsbD_eq; intro k hk
  simp only [CmdWord.fieldB, BitVec.getLsbD_extractLsb', cmdWord_getLsbD, hk, decide_true, Bool.true_and]
  split; omega; split; congr 1; omega; omega
@[simp] theorem fieldC_cmdWord (op : BitVec 4) (a b c : Byte) : CmdWord.fieldC (cmdWord op a b c) = c := by
  apply BitVec.eq_of_getLsbD_eq; intro k hk
  simp only [CmdWord.fieldC, BitVec.getLsbD_extractLsb', cmdWord_getLsbD, hk, decide_true, Bool.true_and]
  split; congr 1; omega; omega
@[simp] theorem addr_cmdWord (op : BitVec 4) (addr : RegAddr) (b c : Byte) : CmdWord.addr (cmdWord op (addrOperand addr) b c) = addr := by
  apply BitVec.eq_of_getLsbD_eq; intro k hk
  simp [CmdWord.addr, fieldA_cmdWord, addrOperand_getLsbD, hk]

/-- Masking a word in the format masks its fields. -/
theorem cmdWord_and (op op' : BitVec 4) (a a' b b' c c' : Byte) (r : BitVec 4) :
    cmdWord op a b c &&& (op' ++ r ++ a' ++ b' ++ c') = cmdWord (op &&& op') (a &&& a') (b &&& b') (c &&& c') := by
  apply BitVec.eq_of_getLsbD_eq; intro k hk
  have h : (op' ++ r ++ a' ++ b' ++ c' : CmdWord).getLsbD k = (op' ++ r ++ a' ++ b' ++ c' : BitVec (4 + 4 + 8 + 8 + 8)).getLsbD k := rfl
  rw [BitVec.getLsbD_and, h]
  simp only [BitVec.getLsbD_append, cmdWord_getLsbD, Nat.sub_sub, BitVec.getLsbD_and]
  repeat' split
  all_goals first | rfl | omega

end Sys2Proof
end

