-- ==== Sys2Proof/Laws/Header.lean ====
section
/-! SUPPORT. The bits of the header byte (rules R51, R90), said once. -/

namespace Sys2Proof.Machine

/-- Every bit of the header under `FRAME_LAYOUT = DOC`: CHIP in [1:0], REG in [6:2], RW in [7]. -/
theorem header_doc_getLsbD (rw : Kind) (addr : RegAddr) (chip : ChipAddr) (i : Nat) :
    (header .doc rw addr chip).getLsbD i =
      if i < 2 then chip.getLsbD i else if i < 7 then addr.getLsbD (i - 2) else (Kind.code rw).getLsbD (i - 7) := by
  have h : (header .doc rw addr chip).getLsbD i =
      (Kind.code rw ++ addr ++ chip : BitVec (1 + 5 + 2)).getLsbD i := rfl
  rw [h]
  simp only [BitVec.getLsbD_append, Nat.sub_sub]
  repeat' split
  all_goals first | rfl | omega

/-- The R/W flag of the header is its bit 7: 1 marks a write. -/
@[simp] theorem header_doc_msb (rw : Kind) (addr : RegAddr) (chip : ChipAddr) :
    (header .doc rw addr chip).getLsbD 7 = (rw == .wr) := by
  rw [header_doc_getLsbD]
  cases rw <;> rfl

end Sys2Proof.Machine
end

