-- ==== Sys2Proof/Laws/HostProgram.lean ====
section
/-! SUPPORT. The laws of the Host's issuing (rule R61), said once. -/

namespace Sys2Proof.Machine

@[simp] theorem issue_nil (s : State) : issue [] s = .next s := rfl

/-- After a command that ends OK the Host goes on. -/
theorem issue_cons_ok (w : CmdWord) (rest : List CmdWord) (s t : State) (h : execWord w s = .next t)
    (hok : t.status = .ok) : issue (w :: rest) s = issue rest t := by
  simp [issue, h, hok]

/-- After a command that ends otherwise the Host stops. -/
theorem issue_cons_stop (w : CmdWord) (rest : List CmdWord) (s t : State) (h : execWord w s = .next t)
    (hne : t.status ≠ .ok) : issue (w :: rest) s = .next t := by
  simp [issue, h, hne]

/-- All that issuing a nonempty list can do. -/
theorem issue_cons_cases (w : CmdWord) (rest : List CmdWord) (s : State) :
    (∃ t, execWord w s = .next t ∧ t.status = .ok ∧ issue (w :: rest) s = issue rest t) ∨
    (∃ t, execWord w s = .next t ∧ t.status ≠ .ok ∧ issue (w :: rest) s = .next t) ∨
    (∃ f, execWord w s = .fault f ∧ issue (w :: rest) s = .fault f) ∨
    (∃ r, execWord w s = .refused r ∧ issue (w :: rest) s = .refused r) := by
  cases h : execWord w s with
  | next t =>
    by_cases hok : t.status = .ok
    · exact .inl ⟨t, rfl, hok, issue_cons_ok w rest s t h hok⟩
    · exact .inr (.inl ⟨t, rfl, hok, issue_cons_stop w rest s t h hok⟩)
  | fault f => exact .inr (.inr (.inl ⟨f, rfl, by simp [issue, h]⟩))
  | refused r => exact .inr (.inr (.inr ⟨r, rfl, by simp [issue, h]⟩))

end Sys2Proof.Machine
end

