-- ==== Sys2Proof/Laws/State.lean ====
section
/-! SUPPORT. One lemma per field per update of the state, each true by unfolding the update once. -/

namespace Sys2Proof.Machine

/-! ### `State.memWrite` -/

@[simp] theorem State.memWrite_crcEn (s : State) (i : Fin 3) (v : Byte) : (s.memWrite i v).crcEn = s.crcEn := rfl
@[simp] theorem State.memWrite_chipAddr (s : State) (i : Fin 3) (v : Byte) : (s.memWrite i v).chipAddr = s.chipAddr := rfl
@[simp] theorem State.memWrite_buf (s : State) (i : Fin 3) (v : Byte) : (s.memWrite i v).buf = Memory.write s.buf i v := rfl
@[simp] theorem State.memWrite_len (s : State) (i : Fin 3) (v : Byte) : (s.memWrite i v).len = s.len := rfl
@[simp] theorem State.memWrite_res (s : State) (i : Fin 3) (v : Byte) : (s.memWrite i v).res = s.res := rfl
@[simp] theorem State.memWrite_status (s : State) (i : Fin 3) (v : Byte) : (s.memWrite i v).status = s.status := rfl
@[simp] theorem State.memWrite_terr (s : State) (i : Fin 3) (v : Byte) : (s.memWrite i v).terr = s.terr := rfl
@[simp] theorem State.memWrite_phase (s : State) (i : Fin 3) (v : Byte) : (s.memWrite i v).phase = s.phase := rfl
@[simp] theorem State.memWrite_kind (s : State) (i : Fin 3) (v : Byte) : (s.memWrite i v).kind = s.kind := rfl
@[simp] theorem State.memWrite_inputs (s : State) (i : Fin 3) (v : Byte) : (s.memWrite i v).inputs = s.inputs := rfl
@[simp] theorem State.memWrite_index (s : State) (i : Fin 3) (v : Byte) : (s.memWrite i v).index = s.index := rfl
@[simp] theorem State.memWrite_answers (s : State) (i : Fin 3) (v : Byte) : (s.memWrite i v).answers = s.answers := rfl
@[simp] theorem State.memWrite_draws (s : State) (i : Fin 3) (v : Byte) : (s.memWrite i v).draws = s.draws := rfl
@[simp] theorem State.memWrite_wire (s : State) (i : Fin 3) (v : Byte) : (s.memWrite i v).wire = s.wire := rfl

/-! ### `State.storeBytes` -/

@[simp] theorem State.storeBytes_crcEn (s : State) (bytes : List Byte) : (s.storeBytes bytes).crcEn = s.crcEn := rfl
@[simp] theorem State.storeBytes_chipAddr (s : State) (bytes : List Byte) : (s.storeBytes bytes).chipAddr = s.chipAddr := rfl
@[simp] theorem State.storeBytes_buf (s : State) (bytes : List Byte) : (s.storeBytes bytes).buf = Memory.writeFirst s.buf bytes := rfl
@[simp] theorem State.storeBytes_len (s : State) (bytes : List Byte) : (s.storeBytes bytes).len = s.len := rfl
@[simp] theorem State.storeBytes_res (s : State) (bytes : List Byte) : (s.storeBytes bytes).res = s.res := rfl
@[simp] theorem State.storeBytes_status (s : State) (bytes : List Byte) : (s.storeBytes bytes).status = s.status := rfl
@[simp] theorem State.storeBytes_terr (s : State) (bytes : List Byte) : (s.storeBytes bytes).terr = s.terr := rfl
@[simp] theorem State.storeBytes_phase (s : State) (bytes : List Byte) : (s.storeBytes bytes).phase = s.phase := rfl
@[simp] theorem State.storeBytes_kind (s : State) (bytes : List Byte) : (s.storeBytes bytes).kind = s.kind := rfl
@[simp] theorem State.storeBytes_inputs (s : State) (bytes : List Byte) : (s.storeBytes bytes).inputs = s.inputs := rfl
@[simp] theorem State.storeBytes_index (s : State) (bytes : List Byte) : (s.storeBytes bytes).index = s.index := rfl
@[simp] theorem State.storeBytes_answers (s : State) (bytes : List Byte) : (s.storeBytes bytes).answers = s.answers := rfl
@[simp] theorem State.storeBytes_draws (s : State) (bytes : List Byte) : (s.storeBytes bytes).draws = s.draws := rfl
@[simp] theorem State.storeBytes_wire (s : State) (bytes : List Byte) : (s.storeBytes bytes).wire = s.wire := rfl

/-! ### `State.setConfig` -/

@[simp] theorem State.setConfig_crcEn (s : State) (en : Bool) (chip : ChipAddr) : (s.setConfig en chip).crcEn = en := rfl
@[simp] theorem State.setConfig_chipAddr (s : State) (en : Bool) (chip : ChipAddr) : (s.setConfig en chip).chipAddr = chip := rfl
@[simp] theorem State.setConfig_buf (s : State) (en : Bool) (chip : ChipAddr) : (s.setConfig en chip).buf = s.buf := rfl
@[simp] theorem State.setConfig_len (s : State) (en : Bool) (chip : ChipAddr) : (s.setConfig en chip).len = s.len := rfl
@[simp] theorem State.setConfig_res (s : State) (en : Bool) (chip : ChipAddr) : (s.setConfig en chip).res = s.res := rfl
@[simp] theorem State.setConfig_status (s : State) (en : Bool) (chip : ChipAddr) : (s.setConfig en chip).status = s.status := rfl
@[simp] theorem State.setConfig_terr (s : State) (en : Bool) (chip : ChipAddr) : (s.setConfig en chip).terr = s.terr := rfl
@[simp] theorem State.setConfig_phase (s : State) (en : Bool) (chip : ChipAddr) : (s.setConfig en chip).phase = s.phase := rfl
@[simp] theorem State.setConfig_kind (s : State) (en : Bool) (chip : ChipAddr) : (s.setConfig en chip).kind = s.kind := rfl
@[simp] theorem State.setConfig_inputs (s : State) (en : Bool) (chip : ChipAddr) : (s.setConfig en chip).inputs = s.inputs := rfl
@[simp] theorem State.setConfig_index (s : State) (en : Bool) (chip : ChipAddr) : (s.setConfig en chip).index = s.index := rfl
@[simp] theorem State.setConfig_answers (s : State) (en : Bool) (chip : ChipAddr) : (s.setConfig en chip).answers = s.answers := rfl
@[simp] theorem State.setConfig_draws (s : State) (en : Bool) (chip : ChipAddr) : (s.setConfig en chip).draws = s.draws := rfl
@[simp] theorem State.setConfig_wire (s : State) (en : Bool) (chip : ChipAddr) : (s.setConfig en chip).wire = s.wire := rfl

/-! ### `State.setLen` -/

@[simp] theorem State.setLen_crcEn (s : State) (n : FrameLen) : (s.setLen n).crcEn = s.crcEn := rfl
@[simp] theorem State.setLen_chipAddr (s : State) (n : FrameLen) : (s.setLen n).chipAddr = s.chipAddr := rfl
@[simp] theorem State.setLen_buf (s : State) (n : FrameLen) : (s.setLen n).buf = s.buf := rfl
@[simp] theorem State.setLen_len (s : State) (n : FrameLen) : (s.setLen n).len = n := rfl
@[simp] theorem State.setLen_res (s : State) (n : FrameLen) : (s.setLen n).res = s.res := rfl
@[simp] theorem State.setLen_status (s : State) (n : FrameLen) : (s.setLen n).status = s.status := rfl
@[simp] theorem State.setLen_terr (s : State) (n : FrameLen) : (s.setLen n).terr = s.terr := rfl
@[simp] theorem State.setLen_phase (s : State) (n : FrameLen) : (s.setLen n).phase = s.phase := rfl
@[simp] theorem State.setLen_kind (s : State) (n : FrameLen) : (s.setLen n).kind = s.kind := rfl
@[simp] theorem State.setLen_inputs (s : State) (n : FrameLen) : (s.setLen n).inputs = s.inputs := rfl
@[simp] theorem State.setLen_index (s : State) (n : FrameLen) : (s.setLen n).index = s.index := rfl
@[simp] theorem State.setLen_answers (s : State) (n : FrameLen) : (s.setLen n).answers = s.answers := rfl
@[simp] theorem State.setLen_draws (s : State) (n : FrameLen) : (s.setLen n).draws = s.draws := rfl
@[simp] theorem State.setLen_wire (s : State) (n : FrameLen) : (s.setLen n).wire = s.wire := rfl

/-! ### `State.setRes` -/

@[simp] theorem State.setRes_crcEn (s : State) (v : Byte) : (s.setRes v).crcEn = s.crcEn := rfl
@[simp] theorem State.setRes_chipAddr (s : State) (v : Byte) : (s.setRes v).chipAddr = s.chipAddr := rfl
@[simp] theorem State.setRes_buf (s : State) (v : Byte) : (s.setRes v).buf = s.buf := rfl
@[simp] theorem State.setRes_len (s : State) (v : Byte) : (s.setRes v).len = s.len := rfl
@[simp] theorem State.setRes_res (s : State) (v : Byte) : (s.setRes v).res = v := rfl
@[simp] theorem State.setRes_status (s : State) (v : Byte) : (s.setRes v).status = s.status := rfl
@[simp] theorem State.setRes_terr (s : State) (v : Byte) : (s.setRes v).terr = s.terr := rfl
@[simp] theorem State.setRes_phase (s : State) (v : Byte) : (s.setRes v).phase = s.phase := rfl
@[simp] theorem State.setRes_kind (s : State) (v : Byte) : (s.setRes v).kind = s.kind := rfl
@[simp] theorem State.setRes_inputs (s : State) (v : Byte) : (s.setRes v).inputs = s.inputs := rfl
@[simp] theorem State.setRes_index (s : State) (v : Byte) : (s.setRes v).index = s.index := rfl
@[simp] theorem State.setRes_answers (s : State) (v : Byte) : (s.setRes v).answers = s.answers := rfl
@[simp] theorem State.setRes_draws (s : State) (v : Byte) : (s.setRes v).draws = s.draws := rfl
@[simp] theorem State.setRes_wire (s : State) (v : Byte) : (s.setRes v).wire = s.wire := rfl

/-! ### `State.setTerr` -/

@[simp] theorem State.setTerr_crcEn (s : State) (c : TCode) : (s.setTerr c).crcEn = s.crcEn := rfl
@[simp] theorem State.setTerr_chipAddr (s : State) (c : TCode) : (s.setTerr c).chipAddr = s.chipAddr := rfl
@[simp] theorem State.setTerr_buf (s : State) (c : TCode) : (s.setTerr c).buf = s.buf := rfl
@[simp] theorem State.setTerr_len (s : State) (c : TCode) : (s.setTerr c).len = s.len := rfl
@[simp] theorem State.setTerr_res (s : State) (c : TCode) : (s.setTerr c).res = s.res := rfl
@[simp] theorem State.setTerr_status (s : State) (c : TCode) : (s.setTerr c).status = s.status := rfl
@[simp] theorem State.setTerr_terr (s : State) (c : TCode) : (s.setTerr c).terr = c := rfl
@[simp] theorem State.setTerr_phase (s : State) (c : TCode) : (s.setTerr c).phase = s.phase := rfl
@[simp] theorem State.setTerr_kind (s : State) (c : TCode) : (s.setTerr c).kind = s.kind := rfl
@[simp] theorem State.setTerr_inputs (s : State) (c : TCode) : (s.setTerr c).inputs = s.inputs := rfl
@[simp] theorem State.setTerr_index (s : State) (c : TCode) : (s.setTerr c).index = s.index := rfl
@[simp] theorem State.setTerr_answers (s : State) (c : TCode) : (s.setTerr c).answers = s.answers := rfl
@[simp] theorem State.setTerr_draws (s : State) (c : TCode) : (s.setTerr c).draws = s.draws := rfl
@[simp] theorem State.setTerr_wire (s : State) (c : TCode) : (s.setTerr c).wire = s.wire := rfl

/-! ### `State.setPhase` -/

@[simp] theorem State.setPhase_crcEn (s : State) (p : Phase) : (s.setPhase p).crcEn = s.crcEn := rfl
@[simp] theorem State.setPhase_chipAddr (s : State) (p : Phase) : (s.setPhase p).chipAddr = s.chipAddr := rfl
@[simp] theorem State.setPhase_buf (s : State) (p : Phase) : (s.setPhase p).buf = s.buf := rfl
@[simp] theorem State.setPhase_len (s : State) (p : Phase) : (s.setPhase p).len = s.len := rfl
@[simp] theorem State.setPhase_res (s : State) (p : Phase) : (s.setPhase p).res = s.res := rfl
@[simp] theorem State.setPhase_status (s : State) (p : Phase) : (s.setPhase p).status = s.status := rfl
@[simp] theorem State.setPhase_terr (s : State) (p : Phase) : (s.setPhase p).terr = s.terr := rfl
@[simp] theorem State.setPhase_phase (s : State) (p : Phase) : (s.setPhase p).phase = p := rfl
@[simp] theorem State.setPhase_kind (s : State) (p : Phase) : (s.setPhase p).kind = s.kind := rfl
@[simp] theorem State.setPhase_inputs (s : State) (p : Phase) : (s.setPhase p).inputs = s.inputs := rfl
@[simp] theorem State.setPhase_index (s : State) (p : Phase) : (s.setPhase p).index = s.index := rfl
@[simp] theorem State.setPhase_answers (s : State) (p : Phase) : (s.setPhase p).answers = s.answers := rfl
@[simp] theorem State.setPhase_draws (s : State) (p : Phase) : (s.setPhase p).draws = s.draws := rfl
@[simp] theorem State.setPhase_wire (s : State) (p : Phase) : (s.setPhase p).wire = s.wire := rfl

/-! ### `State.setKind` -/

@[simp] theorem State.setKind_crcEn (s : State) (k : Kind) : (s.setKind k).crcEn = s.crcEn := rfl
@[simp] theorem State.setKind_chipAddr (s : State) (k : Kind) : (s.setKind k).chipAddr = s.chipAddr := rfl
@[simp] theorem State.setKind_buf (s : State) (k : Kind) : (s.setKind k).buf = s.buf := rfl
@[simp] theorem State.setKind_len (s : State) (k : Kind) : (s.setKind k).len = s.len := rfl
@[simp] theorem State.setKind_res (s : State) (k : Kind) : (s.setKind k).res = s.res := rfl
@[simp] theorem State.setKind_status (s : State) (k : Kind) : (s.setKind k).status = s.status := rfl
@[simp] theorem State.setKind_terr (s : State) (k : Kind) : (s.setKind k).terr = s.terr := rfl
@[simp] theorem State.setKind_phase (s : State) (k : Kind) : (s.setKind k).phase = s.phase := rfl
@[simp] theorem State.setKind_kind (s : State) (k : Kind) : (s.setKind k).kind = k := rfl
@[simp] theorem State.setKind_inputs (s : State) (k : Kind) : (s.setKind k).inputs = s.inputs := rfl
@[simp] theorem State.setKind_index (s : State) (k : Kind) : (s.setKind k).index = s.index := rfl
@[simp] theorem State.setKind_answers (s : State) (k : Kind) : (s.setKind k).answers = s.answers := rfl
@[simp] theorem State.setKind_draws (s : State) (k : Kind) : (s.setKind k).draws = s.draws := rfl
@[simp] theorem State.setKind_wire (s : State) (k : Kind) : (s.setKind k).wire = s.wire := rfl

/-! ### `State.raise` -/

@[simp] theorem State.raise_crcEn (s : State) (e : Status) : (s.raise e).crcEn = s.crcEn := rfl
@[simp] theorem State.raise_chipAddr (s : State) (e : Status) : (s.raise e).chipAddr = s.chipAddr := rfl
@[simp] theorem State.raise_buf (s : State) (e : Status) : (s.raise e).buf = s.buf := rfl
@[simp] theorem State.raise_len (s : State) (e : Status) : (s.raise e).len = s.len := rfl
@[simp] theorem State.raise_res (s : State) (e : Status) : (s.raise e).res = s.res := rfl
@[simp] theorem State.raise_status (s : State) (e : Status) : (s.raise e).status = e := rfl
@[simp] theorem State.raise_terr (s : State) (e : Status) : (s.raise e).terr = s.terr := rfl
@[simp] theorem State.raise_phase (s : State) (e : Status) : (s.raise e).phase = s.phase := rfl
@[simp] theorem State.raise_kind (s : State) (e : Status) : (s.raise e).kind = s.kind := rfl
@[simp] theorem State.raise_inputs (s : State) (e : Status) : (s.raise e).inputs = s.inputs := rfl
@[simp] theorem State.raise_index (s : State) (e : Status) : (s.raise e).index = s.index := rfl
@[simp] theorem State.raise_answers (s : State) (e : Status) : (s.raise e).answers = s.answers := rfl
@[simp] theorem State.raise_draws (s : State) (e : Status) : (s.raise e).draws = s.draws := rfl
@[simp] theorem State.raise_wire (s : State) (e : Status) : (s.raise e).wire = s.wire := rfl

/-! ### `State.complete` -/

@[simp] theorem State.complete_crcEn (s : State) : (s.complete).crcEn = s.crcEn := rfl
@[simp] theorem State.complete_chipAddr (s : State) : (s.complete).chipAddr = s.chipAddr := rfl
@[simp] theorem State.complete_buf (s : State) : (s.complete).buf = s.buf := rfl
@[simp] theorem State.complete_len (s : State) : (s.complete).len = s.len := rfl
@[simp] theorem State.complete_res (s : State) : (s.complete).res = s.res := rfl
@[simp] theorem State.complete_status (s : State) : (s.complete).status = .ok := rfl
@[simp] theorem State.complete_terr (s : State) : (s.complete).terr = s.terr := rfl
@[simp] theorem State.complete_phase (s : State) : (s.complete).phase = s.phase := rfl
@[simp] theorem State.complete_kind (s : State) : (s.complete).kind = s.kind := rfl
@[simp] theorem State.complete_inputs (s : State) : (s.complete).inputs = s.inputs := rfl
@[simp] theorem State.complete_index (s : State) : (s.complete).index = s.index := rfl
@[simp] theorem State.complete_answers (s : State) : (s.complete).answers = s.answers := rfl
@[simp] theorem State.complete_draws (s : State) : (s.complete).draws = s.draws := rfl
@[simp] theorem State.complete_wire (s : State) : (s.complete).wire = s.wire := rfl

/-! ### `State.recordExchange` -/

@[simp] theorem State.recordExchange_crcEn (s : State) (tx : List Byte) (code : TCode) (rx : List Byte) : (s.recordExchange tx code rx).crcEn = s.crcEn := rfl
@[simp] theorem State.recordExchange_chipAddr (s : State) (tx : List Byte) (code : TCode) (rx : List Byte) : (s.recordExchange tx code rx).chipAddr = s.chipAddr := rfl
@[simp] theorem State.recordExchange_buf (s : State) (tx : List Byte) (code : TCode) (rx : List Byte) : (s.recordExchange tx code rx).buf = s.buf := rfl
@[simp] theorem State.recordExchange_len (s : State) (tx : List Byte) (code : TCode) (rx : List Byte) : (s.recordExchange tx code rx).len = s.len := rfl
@[simp] theorem State.recordExchange_res (s : State) (tx : List Byte) (code : TCode) (rx : List Byte) : (s.recordExchange tx code rx).res = s.res := rfl
@[simp] theorem State.recordExchange_status (s : State) (tx : List Byte) (code : TCode) (rx : List Byte) : (s.recordExchange tx code rx).status = s.status := rfl
@[simp] theorem State.recordExchange_terr (s : State) (tx : List Byte) (code : TCode) (rx : List Byte) : (s.recordExchange tx code rx).terr = s.terr := rfl
@[simp] theorem State.recordExchange_phase (s : State) (tx : List Byte) (code : TCode) (rx : List Byte) : (s.recordExchange tx code rx).phase = s.phase := rfl
@[simp] theorem State.recordExchange_kind (s : State) (tx : List Byte) (code : TCode) (rx : List Byte) : (s.recordExchange tx code rx).kind = s.kind := rfl
@[simp] theorem State.recordExchange_inputs (s : State) (tx : List Byte) (code : TCode) (rx : List Byte) : (s.recordExchange tx code rx).inputs = s.inputs := rfl
@[simp] theorem State.recordExchange_index (s : State) (tx : List Byte) (code : TCode) (rx : List Byte) : (s.recordExchange tx code rx).index = s.index := rfl
@[simp] theorem State.recordExchange_answers (s : State) (tx : List Byte) (code : TCode) (rx : List Byte) : (s.recordExchange tx code rx).answers = s.answers.tail := rfl
@[simp] theorem State.recordExchange_draws (s : State) (tx : List Byte) (code : TCode) (rx : List Byte) : (s.recordExchange tx code rx).draws = s.draws + 1 := rfl
@[simp] theorem State.recordExchange_wire (s : State) (tx : List Byte) (code : TCode) (rx : List Byte) : (s.recordExchange tx code rx).wire = s.wire ++ [⟨tx, code, if code = 0#32 then rx else []⟩] := rfl

/-! ### `State.drawBytes` -/

@[simp] theorem State.drawBytes_crcEn (s : State) (n : Nat) : (s.drawBytes n).crcEn = s.crcEn := rfl
@[simp] theorem State.drawBytes_chipAddr (s : State) (n : Nat) : (s.drawBytes n).chipAddr = s.chipAddr := rfl
@[simp] theorem State.drawBytes_buf (s : State) (n : Nat) : (s.drawBytes n).buf = Memory.writeFirst s.buf ((List.range n).map (fun k => Config.anyByte (s.draws + k))) := rfl
@[simp] theorem State.drawBytes_len (s : State) (n : Nat) : (s.drawBytes n).len = s.len := rfl
@[simp] theorem State.drawBytes_res (s : State) (n : Nat) : (s.drawBytes n).res = s.res := rfl
@[simp] theorem State.drawBytes_status (s : State) (n : Nat) : (s.drawBytes n).status = s.status := rfl
@[simp] theorem State.drawBytes_terr (s : State) (n : Nat) : (s.drawBytes n).terr = s.terr := rfl
@[simp] theorem State.drawBytes_phase (s : State) (n : Nat) : (s.drawBytes n).phase = s.phase := rfl
@[simp] theorem State.drawBytes_kind (s : State) (n : Nat) : (s.drawBytes n).kind = s.kind := rfl
@[simp] theorem State.drawBytes_inputs (s : State) (n : Nat) : (s.drawBytes n).inputs = s.inputs := rfl
@[simp] theorem State.drawBytes_index (s : State) (n : Nat) : (s.drawBytes n).index = s.index := rfl
@[simp] theorem State.drawBytes_answers (s : State) (n : Nat) : (s.drawBytes n).answers = s.answers := rfl
@[simp] theorem State.drawBytes_draws (s : State) (n : Nat) : (s.drawBytes n).draws = s.draws + n := rfl
@[simp] theorem State.drawBytes_wire (s : State) (n : Nat) : (s.drawBytes n).wire = s.wire := rfl

/-! ### `State.advance` -/

@[simp] theorem State.advance_crcEn (s : State) : (s.advance).crcEn = s.crcEn := rfl
@[simp] theorem State.advance_chipAddr (s : State) : (s.advance).chipAddr = s.chipAddr := rfl
@[simp] theorem State.advance_buf (s : State) : (s.advance).buf = s.buf := rfl
@[simp] theorem State.advance_len (s : State) : (s.advance).len = s.len := rfl
@[simp] theorem State.advance_res (s : State) : (s.advance).res = s.res := rfl
@[simp] theorem State.advance_status (s : State) : (s.advance).status = s.status := rfl
@[simp] theorem State.advance_terr (s : State) : (s.advance).terr = s.terr := rfl
@[simp] theorem State.advance_phase (s : State) : (s.advance).phase = s.phase := rfl
@[simp] theorem State.advance_kind (s : State) : (s.advance).kind = s.kind := rfl
@[simp] theorem State.advance_inputs (s : State) : (s.advance).inputs = s.inputs := rfl
@[simp] theorem State.advance_index (s : State) : (s.advance).index = s.index + 1 := rfl
@[simp] theorem State.advance_answers (s : State) : (s.advance).answers = s.answers := rfl
@[simp] theorem State.advance_draws (s : State) : (s.advance).draws = s.draws := rfl
@[simp] theorem State.advance_wire (s : State) : (s.advance).wire = s.wire := rfl

/-! ### `State.applyReset` -/

@[simp] theorem State.applyReset_crcEn (s : State) : (s.applyReset).crcEn = false := rfl
@[simp] theorem State.applyReset_chipAddr (s : State) : (s.applyReset).chipAddr = 0#2 := rfl
@[simp] theorem State.applyReset_buf (s : State) : (s.applyReset).buf = [] := rfl
@[simp] theorem State.applyReset_len (s : State) : (s.applyReset).len = .zero := rfl
@[simp] theorem State.applyReset_res (s : State) : (s.applyReset).res = 0x00#8 := rfl
@[simp] theorem State.applyReset_status (s : State) : (s.applyReset).status = .ok := rfl
@[simp] theorem State.applyReset_terr (s : State) : (s.applyReset).terr = 0#32 := rfl
@[simp] theorem State.applyReset_phase (s : State) : (s.applyReset).phase = .idle := rfl
@[simp] theorem State.applyReset_kind (s : State) : (s.applyReset).kind = .rd := rfl
@[simp] theorem State.applyReset_inputs (s : State) : (s.applyReset).inputs = s.inputs := rfl
@[simp] theorem State.applyReset_index (s : State) : (s.applyReset).index = s.index := rfl
@[simp] theorem State.applyReset_answers (s : State) : (s.applyReset).answers = s.answers := rfl
@[simp] theorem State.applyReset_draws (s : State) : (s.applyReset).draws = s.draws := rfl
@[simp] theorem State.applyReset_wire (s : State) : (s.applyReset).wire = s.wire := rfl

end Sys2Proof.Machine
end

