-- ==== Sys2Proof/Laws/Memory.lean ====
section
/-! SUPPORT. The laws of the buffer (rule R31): a read after a write, which holds of every list, canonical or not, and
that every operation keeps the canonical form. -/

namespace Sys2Proof.Machine

/-- The three indices of the buffer. -/
theorem bufferIndex_cases (i : Fin 3) : i = 0 ∨ i = 1 ∨ i = 2 := by
  match i with
  | 0 => exact .inl rfl
  | 1 => exact .inr (.inl rfl)
  | 2 => exact .inr (.inr rfl)

/-- An erased address reads as an unlisted one, and every other as before. -/
theorem Memory.cell_erase (m : Memory) (i j : Nat) :
    Memory.cell (Memory.erase m i) j = if j = i then unlistedByte else Memory.cell m j := by
  induction m with
  | nil => simp [Memory.erase, Memory.cell]
  | cons e rest ih =>
    obtain ⟨a, v⟩ := e
    grind [Memory.erase, Memory.cell]

/-- An inserted address reads as the inserted byte, and every other as before. -/
theorem Memory.cell_insert (m : Memory) (i j : Nat) (v : Byte) :
    Memory.cell (Memory.insert m i v) j = if j = i then v else Memory.cell m j := by
  induction m with
  | nil => grind [Memory.insert, Memory.cell]
  | cons e rest ih =>
    obtain ⟨a, w⟩ := e
    grind [Memory.insert, Memory.cell]

/-- A read after a write gives the byte written at its own index and what it gave before at every other. -/
@[simp] theorem Memory.read_write (m : Memory) (i j : Fin 3) (v : Byte) :
    Memory.read (Memory.write m i v) j = if j = i then v else Memory.read m j := by
  have hij : j.val = i.val ↔ j = i := Fin.val_inj
  simp only [Memory.read, Memory.write]
  split <;> simp_all [Memory.cell_erase, Memory.cell_insert]

/-- A larger lower bound is a stronger one. -/
theorem Memory.wfFrom_mono (m : Memory) (low low' : Nat) (hl : low' ≤ low) (h : Memory.wfFrom low m = true) :
    Memory.wfFrom low' m = true := by
  cases m with
  | nil => rfl
  | cons e rest =>
    simp only [Memory.wfFrom, Bool.and_eq_true, decide_eq_true_eq] at h ⊢
    exact ⟨by omega, h.2⟩

/-- Erasing keeps the canonical form. -/
theorem Memory.wfFrom_erase (m : Memory) (low i : Nat) (h : Memory.wfFrom low m = true) :
    Memory.wfFrom low (Memory.erase m i) = true := by
  induction m generalizing low with
  | nil => rfl
  | cons e rest ih =>
    obtain ⟨a, v⟩ := e
    simp only [Memory.wfFrom, Bool.and_eq_true, decide_eq_true_eq] at h
    simp only [Memory.erase]
    split
    · exact Memory.wfFrom_mono _ _ _ (by omega) (ih _ h.2.2.2)
    · simp [Memory.wfFrom, h.1, h.2.1, h.2.2.1, ih _ h.2.2.2]

/-- Inserting a byte that is not what an unlisted address reads as keeps the canonical form. -/
theorem Memory.wfFrom_insert (m : Memory) (low i : Nat) (v : Byte) (hv : v ≠ unlistedByte) (hi : i < 3)
    (hl : low ≤ i) (h : Memory.wfFrom low m = true) : Memory.wfFrom low (Memory.insert m i v) = true := by
  induction m generalizing low with
  | nil => simp [Memory.insert, Memory.wfFrom, hl, hi, hv]
  | cons e rest ih =>
    obtain ⟨a, w⟩ := e
    simp only [Memory.wfFrom, Bool.and_eq_true, decide_eq_true_eq] at h
    simp only [Memory.insert]
    split
    · simp [Memory.wfFrom, hl, hi, hv, h, Nat.succ_le_of_lt ‹i < a›]
    · split
      · subst i; simp [Memory.wfFrom, hl, hi, hv, h.2.2.2]
      · simp [Memory.wfFrom, h.1, h.2.1, h.2.2.1, ih _ (by omega) h.2.2.2]

/-- Every write keeps the canonical form. -/
theorem Memory.wf_write (m : Memory) (i : Fin 3) (v : Byte) (h : Memory.wf m = true) :
    Memory.wf (Memory.write m i v) = true := by
  simp only [Memory.wf, Memory.write] at *
  split
  · exact Memory.wfFrom_erase _ _ _ h
  · exact Memory.wfFrom_insert _ _ _ _ ‹_› i.isLt (Nat.zero_le _) h

/-- Storing a run of bytes keeps the canonical form. -/
theorem Memory.wf_writeFirst (m : Memory) (bytes : List Byte) (h : Memory.wf m = true) :
    Memory.wf (Memory.writeFirst m bytes) = true := by
  match bytes with
  | [] => exact h
  | [_] => exact Memory.wf_write _ _ _ h
  | [_, _] => exact Memory.wf_write _ _ _ (Memory.wf_write _ _ _ h)
  | _ :: _ :: _ :: _ => exact Memory.wf_write _ _ _ (Memory.wf_write _ _ _ (Memory.wf_write _ _ _ h))

/-- The memory of the reset state is in canonical form. -/
theorem Memory.wf_reset : Memory.wf State.reset.buf = true := rfl

/-- An empty list reads as the reset value everywhere. -/
@[simp] theorem Memory.read_nil (i : Fin 3) : Memory.read [] i = 0x00#8 := rfl

@[simp] theorem Memory.writeFirst_two (m : Memory) (v0 v1 : Byte) :
    Memory.writeFirst m [v0, v1] = Memory.write (Memory.write m 0 v0) 1 v1 := rfl

@[simp] theorem Memory.writeFirst_three (m : Memory) (v0 v1 v2 : Byte) :
    Memory.writeFirst m [v0, v1, v2] = Memory.write (Memory.write (Memory.write m 0 v0) 1 v1) 2 v2 := rfl

@[simp] theorem Memory.readFirst_two (m : Memory) : Memory.readFirst m 2 = [Memory.read m 0, Memory.read m 1] := rfl

@[simp] theorem Memory.readFirst_three (m : Memory) :
    Memory.readFirst m 3 = [Memory.read m 0, Memory.read m 1, Memory.read m 2] := rfl

/-- A byte of the state after a write to the buffer. -/
@[simp] theorem State.byte_memWrite (s : State) (i j : Fin 3) (v : Byte) :
    (s.memWrite i v).byte j = if j = i then v else s.byte j := by
  simp [State.byte]

end Sys2Proof.Machine
end

