-- ==== Sys2Proof/Laws/Ops.lean ====
section
/-! SUPPORT. One specification per shared operation: what it can do, said once. -/

namespace Sys2Proof.Machine

/-! ### Updates leave the bytes of the buffer alone -/

@[simp] theorem State.byte_setConfig (s : State) (en : Bool) (chip : ChipAddr) (i : Fin 3) :
    (s.setConfig en chip).byte i = s.byte i := rfl
@[simp] theorem State.byte_setLen (s : State) (n : FrameLen) (i : Fin 3) : (s.setLen n).byte i = s.byte i := rfl
@[simp] theorem State.byte_setRes (s : State) (v : Byte) (i : Fin 3) : (s.setRes v).byte i = s.byte i := rfl
@[simp] theorem State.byte_setTerr (s : State) (c : TCode) (i : Fin 3) : (s.setTerr c).byte i = s.byte i := rfl
@[simp] theorem State.byte_setPhase (s : State) (p : Phase) (i : Fin 3) : (s.setPhase p).byte i = s.byte i := rfl
@[simp] theorem State.byte_setKind (s : State) (k : Kind) (i : Fin 3) : (s.setKind k).byte i = s.byte i := rfl
@[simp] theorem State.byte_raise (s : State) (e : Status) (i : Fin 3) : (s.raise e).byte i = s.byte i := rfl
@[simp] theorem State.byte_complete (s : State) (i : Fin 3) : s.complete.byte i = s.byte i := rfl
@[simp] theorem State.byte_recordExchange (s : State) (tx : List Byte) (code : TCode) (rx : List Byte) (i : Fin 3) :
    (s.recordExchange tx code rx).byte i = s.byte i := rfl
@[simp] theorem State.byte_advance (s : State) (i : Fin 3) : s.advance.byte i = s.byte i := rfl

/-! ### The builders' CRC step -/

/-- With CRC on, byte2 takes the CRC and LEN is 3. -/
theorem State.appendCrc_on (p : Config.Params) (s : State) (h : s.crcEn = true) :
    s.appendCrc p = (s.memWrite 2 (frameCrc p (s.byte 0) (s.byte 1))).setLen .three := by
  simp [State.appendCrc, h]

/-- With CRC off, LEN is 2 and nothing else changes. -/
theorem State.appendCrc_off (p : Config.Params) (s : State) (h : s.crcEn = false) :
    s.appendCrc p = s.setLen .two := by
  simp [State.appendCrc, h]

/-- A write builder with CRC on: three cells are written and LEN is 3. -/
theorem State.buildWrite_on (p : Config.Params) (s : State) (addr : RegAddr) (val : Byte) (h : s.crcEn = true) :
    s.buildWrite p addr val =
      (((((s.memWrite 0 (header p.frameLayout .wr addr s.chipAddr)).memWrite 1 val).memWrite 2
        (frameCrc p (header p.frameLayout .wr addr s.chipAddr) val)).setLen .three).frameReady .wr) := by
  simp [State.buildWrite, State.appendCrc, h]

/-- A write builder with CRC off: two cells are written and LEN is 2. -/
theorem State.buildWrite_off (p : Config.Params) (s : State) (addr : RegAddr) (val : Byte) (h : s.crcEn = false) :
    s.buildWrite p addr val =
      ((((s.memWrite 0 (header p.frameLayout .wr addr s.chipAddr)).memWrite 1 val).setLen .two).frameReady .wr) := by
  simp [State.buildWrite, State.appendCrc, h]

/-- The exchange an answer completes, for a read frame and code 0. -/
theorem State.exchangeAnswered_readOk (s : State) (tx rx : List Byte) (hk : s.kind = .rd) :
    s.exchangeAnswered tx 0#32 rx =
      ((((s.recordExchange tx 0#32 rx).setTerr 0#32).storeBytes rx).setPhase .rxDone).complete := by
  simp [State.exchangeAnswered, State.exchangeSucceeded, hk]

/-- The exchange an answer completes, for a write frame and code 0. -/
theorem State.exchangeAnswered_writeOk (s : State) (tx rx : List Byte) (hk : s.kind = .wr) :
    s.exchangeAnswered tx 0#32 rx = (((s.recordExchange tx 0#32 rx).setTerr 0#32).setPhase .idle).complete := by
  simp [State.exchangeAnswered, State.exchangeSucceeded, hk]

/-- The exchange an answer completes, for a read frame and a nonzero code. -/
theorem State.exchangeAnswered_readFailed (s : State) (tx : List Byte) (code : TCode) (rx : List Byte)
    (hk : s.kind = .rd) (hc : code ≠ 0#32) :
    s.exchangeAnswered tx code rx =
      ((((s.recordExchange tx code rx).setTerr code).drawBytes tx.length).setPhase .idle).raise .eTransport := by
  simp [State.exchangeAnswered, State.exchangeFailed, hk, hc]

/-- The exchange an answer completes, for a write frame and a nonzero code. -/
theorem State.exchangeAnswered_writeFailed (s : State) (tx : List Byte) (code : TCode) (rx : List Byte)
    (hk : s.kind = .wr) (hc : code ≠ 0#32) :
    s.exchangeAnswered tx code rx = (((s.recordExchange tx code rx).setTerr code).setPhase .idle).raise .eTransport := by
  simp [State.exchangeAnswered, State.exchangeFailed, hk, hc]

/-! ### The exchange -/

/-- All an exchange can do: the Transport answers and the answer has its effect, or it never answers. -/
theorem State.transact_cases (s : State) (n : Nat) :
    (∃ code r0 r1 r2, transportMove s.answers s.draws (Memory.readFirst s.buf n) = .answer code r0 r1 r2 ∧
      s.transact n = .next (s.exchangeAnswered (Memory.readFirst s.buf n) code ([r0, r1, r2].take n))) ∨
    (transportMove s.answers s.draws (Memory.readFirst s.buf n) = .never ∧
      s.transact n = .fault .transportNeverAnswers) := by
  cases h : transportMove s.answers s.draws (Memory.readFirst s.buf n) with
  | answer code r0 r1 r2 => exact .inl ⟨code, r0, r1, r2, rfl, by simp [State.transact, h]⟩
  | never => exact .inr ⟨rfl, by simp [State.transact, h]⟩

/-- All XFER can do. -/
theorem execXfer_cases (s : State) :
    (s.phase ≠ .txReady ∧ execXfer s = .next (s.raise .eSequence)) ∨
    (s.phase = .txReady ∧ s.len = .zero ∧ execXfer s = .fault .noFrameLength) ∨
    (s.phase = .txReady ∧ s.len ≠ .zero ∧ execXfer s = s.transact (FrameLen.bytes s.len)) := by
  by_cases hp : s.phase = .txReady
  · cases hl : s.len
    · exact .inr (.inl ⟨hp, rfl, by simp [execXfer, hp, hl]⟩)
    · exact .inr (.inr ⟨hp, by simp, by simp [execXfer, hp, hl, FrameLen.bytes]⟩)
    · exact .inr (.inr ⟨hp, by simp, by simp [execXfer, hp, hl, FrameLen.bytes]⟩)
  · exact .inl ⟨hp, by simp [execXfer, hp]⟩

/-- All CHK_RD can do. -/
theorem State.checkResponse_cases (p : Config.Params) (s : State) :
    (s.phase ≠ .rxDone ∧ s.checkResponse p = s.raise .eSequence) ∨
    (s.phase = .rxDone ∧ s.responseOk p = true ∧
      s.checkResponse p = (((s.setPhase .idle).setRes (s.byte 1)).complete)) ∨
    (s.phase = .rxDone ∧ s.responseOk p = false ∧ s.checkResponse p = (s.setPhase .idle).raise .eIntegrity) := by
  by_cases hp : s.phase = .rxDone
  · cases hr : s.responseOk p
    · exact .inr (.inr ⟨hp, rfl, by simp [State.checkResponse, hp, hr]⟩)
    · exact .inr (.inl ⟨hp, rfl, by simp [State.checkResponse, hp, hr]⟩)
  · exact .inl ⟨hp, by simp [State.checkResponse, hp]⟩

/-! ### The ports -/

/-- A placed input stands at its place. -/
@[simp] theorem placeInput_get (l : List PortInput) (k : Nat) (p : PortInput) : (placeInput l k p)[k]? = some p := by
  induction k generalizing l with
  | zero => cases l <;> rfl
  | succ k ih =>
    cases l with
    | nil => simpa [placeInput] using ih []
    | cons q rest => simpa [placeInput] using ih rest

/-- All a step can do. -/
theorem step_cases (s : State) :
    (∃ w, s.input = some (.command w) ∧ step s = execWord w s.advance) ∨
    (s.input = some .reset ∧ step s = .next s.advance.applyReset) ∨
    (s.input = none ∧ step s = .refused .noInput) := by
  cases h : s.input with
  | none => exact .inr (.inr ⟨rfl, by simp [step, h]⟩)
  | some p =>
    cases p with
    | command w => exact .inl ⟨w, rfl, by simp [step, h]⟩
    | reset => exact .inr (.inl ⟨rfl, by simp [step, h]⟩)

/-- All a command word can do. -/
theorem execWord_cases (w : CmdWord) (s : State) :
    (∃ i, decode w = .command i ∧ execWord w s = exec i s) ∨
    (∃ why, decode w = .illegal why ∧ execWord w s = .next (s.raise .eInvalid)) := by
  cases h : decode w with
  | command i => exact .inl ⟨i, rfl, by simp [execWord, h]⟩
  | illegal why => exact .inr ⟨why, rfl, by simp [execWord, h]⟩

end Sys2Proof.Machine
end

