-- ==== Sys2Proof/Laws/PerInstr.lean ====
section
/-! SUPPORT. What holds of every command as syntax, one lemma per constructor: the word of a command carries the row's
operation code and reserved bits of 0 (rules R54, R56). -/

namespace Sys2Proof.Laws.EncodeOp

/-- The OP column of rule R56. -/
def opcode : Instr → BitVec 4
  | .nop => 0x0
  | .cfg _ _ => 0x1
  | .crcEnc _ _ => 0x2
  | .crcDec _ _ => 0x3
  | .buildWr _ _ => 0x4
  | .buildRd _ => 0x5
  | .xfer => 0x6
  | .chkRd => 0x7
  | .merge _ _ => 0x8
  | .buildWrr _ => 0x9

/-- OP and RSV of the command's word. -/
def Statement (i : Instr) : Prop := CmdWord.op (encode i) = opcode i ∧ CmdWord.rsv (encode i) = 0x0#4

/-- OP and RSV of a word written in the format of rule R54. -/
theorem cmdWord_op_rsv (op : BitVec 4) (a b c : Byte) :
    CmdWord.op (cmdWord op a b c) = op ∧ CmdWord.rsv (cmdWord op a b c) = 0x0#4 :=
  ⟨op_cmdWord op a b c, rsv_cmdWord op a b c⟩

theorem nop : Statement .nop := cmdWord_op_rsv _ _ _ _
theorem cfg (en : Bool) (chip : ChipAddr) : Statement (.cfg en chip) := cmdWord_op_rsv _ _ _ _
theorem crcEnc (b0 b1 : Byte) : Statement (.crcEnc b0 b1) := cmdWord_op_rsv _ _ _ _
theorem crcDec (b0 b1 : Byte) : Statement (.crcDec b0 b1) := cmdWord_op_rsv _ _ _ _
theorem buildWr (addr : RegAddr) (val : Byte) : Statement (.buildWr addr val) := cmdWord_op_rsv _ _ _ _
theorem buildRd (addr : RegAddr) : Statement (.buildRd addr) := cmdWord_op_rsv _ _ _ _
theorem xfer : Statement .xfer := cmdWord_op_rsv _ _ _ _
theorem chkRd : Statement .chkRd := cmdWord_op_rsv _ _ _ _
theorem merge (mask mval : Byte) : Statement (.merge mask mval) := cmdWord_op_rsv _ _ _ _
theorem buildWrr (addr : RegAddr) : Statement (.buildWrr addr) := cmdWord_op_rsv _ _ _ _

end Sys2Proof.Laws.EncodeOp
end

