-- ==== Sys2Proof/Tests/Slice0.lean ====
section
/-! SUPPORT. Tests of one step or one operation each, with results from the spec's own examples and vectors
(95_test_vectors.md, by section), and for each statement that has hypotheses a concrete state and operands that meet
them (`witness_…`). -/

namespace Sys2Proof.Tests

open Sys2Proof Sys2Proof.Machine

-- The 17 steps of a CRC nest deeper than the default when `decide` evaluates them.
set_option maxRecDepth 2000

/-! ### Helpers -/

/-- The next state of an answer, if it is one. -/
def nextOf : Result → Option State
  | .next t => some t
  | .fault _ => none
  | .refused _ => none

/-- A small state: reset, with LEN, PHASE, KIND and the three bytes given. -/
def stateWith (len : FrameLen) (phase : Phase) (kind : Kind) (b0 b1 b2 : Byte) : State :=
  { State.reset with len := len, phase := phase, kind := kind, buf := Memory.writeFirst [] [b0, b1, b2] }

/-- The same with one move of the Transport known. -/
def answering (s : State) (m : TransportMove) : State := { s with answers := [m] }

/-- BUF, LEN, PHASE, KIND and STATUS of a next state, as the vectors list them. -/
def frameView (r : Result) : Option (List Byte × FrameLen × Phase × Kind × Status) :=
  (nextOf r).map (fun t => ([t.byte 0, t.byte 1, t.byte 2], t.len, t.phase, t.kind, t.status))

/-! ### WellFormed: each check refuses an ill-formed line (rule R60) -/

theorem test_wf_cfg_en : Source.wellFormed (.cfg 2 0) = false := by decide
theorem test_wf_cfg_chip : Source.wellFormed (.cfg 0 4) = false := by decide
theorem test_wf_crcEnc_b0 : Source.wellFormed (.crcEnc 256 0) = false := by decide
theorem test_wf_crcEnc_b1 : Source.wellFormed (.crcEnc 0 256) = false := by decide
theorem test_wf_crcDec_b0 : Source.wellFormed (.crcDec 256 0) = false := by decide
theorem test_wf_crcDec_b1 : Source.wellFormed (.crcDec 0 256) = false := by decide
theorem test_wf_buildWr_addr : Source.wellFormed (.buildWr 32 0) = false := by decide
theorem test_wf_buildWr_val : Source.wellFormed (.buildWr 0 256) = false := by decide
theorem test_wf_buildRd_addr : Source.wellFormed (.buildRd 32) = false := by decide
theorem test_wf_merge_mask : Source.wellFormed (.merge 256 0) = false := by decide
theorem test_wf_merge_val : Source.wellFormed (.merge 0 256) = false := by decide
theorem test_wf_buildWrr_addr : Source.wellFormed (.buildWrr 32) = false := by decide
theorem test_wf_write_addr : Source.wellFormed (.write 32 0) = false := by decide
theorem test_wf_write_val : Source.wellFormed (.write 0 256) = false := by decide
theorem test_wf_read_addr : Source.wellFormed (.read 32) = false := by decide
theorem test_wf_update_addr : Source.wellFormed (.update 32 0 0) = false := by decide
theorem test_wf_update_mask : Source.wellFormed (.update 0 256 0) = false := by decide
theorem test_wf_update_val : Source.wellFormed (.update 0 0 256) = false := by decide
theorem test_wf_accepts_largest : Source.wellFormed (.update 31 255 255) = true := by decide

/-! ### Decoding: words written out bit by bit in the format of rule R54 -/

theorem test_decode_nop : decode 0b0000_0000_00000000_00000000_00000000#32 = .command .nop := by decide
theorem test_decode_cfg : decode 0b0001_0000_00000101_00000000_00000000#32 = .command (.cfg true 2#2) := by decide
theorem test_decode_crcEnc :
    decode 0b0010_0000_10000101_00001111_00000000#32 = .command (.crcEnc 0x85#8 0x0F#8) := by decide
theorem test_decode_crcDec :
    decode 0b0011_0000_00010100_01011010_00000000#32 = .command (.crcDec 0x14#8 0x5A#8) := by decide
theorem test_decode_buildWr :
    decode 0b0100_0000_00000101_10101011_00000000#32 = .command (.buildWr 5#5 0xAB#8) := by decide
theorem test_decode_buildRd : decode 0b0101_0000_00010001_00000000_00000000#32 = .command (.buildRd 17#5) := by decide
theorem test_decode_xfer : decode 0b0110_0000_00000000_00000000_00000000#32 = .command .xfer := by decide
theorem test_decode_chkRd : decode 0b0111_0000_00000000_00000000_00000000#32 = .command .chkRd := by decide
theorem test_decode_merge :
    decode 0b1000_0000_00000000_00001111_00000011#32 = .command (.merge 0x0F#8 0x03#8) := by decide
theorem test_decode_buildWrr : decode 0b1001_0000_00000010_00000000_00000000#32 = .command (.buildWrr 2#5) := by decide

/-- The illegal words of section 2.11. -/
theorem test_decode_illegal :
    [0x00000001#32, 0x01000000#32, 0x10080000#32, 0x20FFFF01#32, 0x402FFF00#32, 0x501F0001#32, 0x6F000000#32,
      0x80FF0000#32, 0x90000100#32].map decode = List.replicate 9 (.illegal .mustBeZeroBitSet) := by decide
theorem test_decode_unassigned :
    [0xA0000000#32, 0xF0000000#32, 0xFFFFFFFF#32].map decode = List.replicate 3 (.illegal .unassignedOp) := by decide

/-- The host's question, for a row and for a word the decoder refuses. -/
theorem test_decodeTableWord : decodeTableWord 32 0x401FFF00 = some (.buildWr 31#5 0xFF#8) ∧
    decodeTableWord 32 0x402FFF00 = none ∧ decodeTableWord 64 0 = none := by decide

/-! ### Commands, one step each -/

/-- 40_crc5_codec.md rule R74 and section 2.4. -/
theorem test_crcEnc_example : (nextOf (execCrcEnc 0x85#8 0x0F#8 State.reset)).map State.res = some 0x1D#8 := by decide
theorem test_crcEnc_vectors :
    crc5Enc Config.spec 0xA5#8 0x5A#8 = 0x15#5 ∧ crc5Enc Config.spec 0x12#8 0x34#8 = 0x00#5 := by decide
/-- 40_crc5_codec.md rule R75 and section 2.4. -/
theorem test_crcDec_example : (nextOf (execCrcDec 0x14#8 0x5A#8 State.reset)).map State.res = some 0x1A#8 := by decide
theorem test_crcDec_vectors :
    crc5Dec Config.spec 0xA5#8 0x5A#8 = 0x12#5 ∧ crc5Dec Config.spec 0x00#8 0x01#8 = 0x00#5 := by decide

/-- Section 2.6: `cfg 1, 2`. -/
theorem test_cfg : (nextOf (execWord 0x10050000#32 State.reset)).map (fun t => (t.crcEn, t.chipAddr)) =
    some (true, 2#2) := by decide
/-- Section 2.6: A[3] = 1 is refused and changes only STATUS. -/
theorem test_cfg_illegal : nextOf (execWord 0x10080000#32 State.reset) =
    some { State.reset with status := .eInvalid } := by decide

/-- Section 2.7: BUF before is [0xC1, 0xC2, 0xC3]. -/
theorem test_buildWr_crc :
    frameView (execWord 0x400A5500#32
      { stateWith .zero .idle .rd 0xC1 0xC2 0xC3 with crcEn := true, chipAddr := 2#2 }) =
      some ([0xAA, 0x55, 0x0D], .three, .txReady, .wr, .ok) := by decide
theorem test_buildWr_plain :
    frameView (execWord 0x40010F00#32 { stateWith .zero .idle .rd 0xC1 0xC2 0xC3 with chipAddr := 1#2 }) =
      some ([0x85, 0x0F, 0xC3], .two, .txReady, .wr, .ok) := by decide
theorem test_buildWrr_crc :
    frameView (execWord 0x90020000#32
      { stateWith .zero .idle .rd 0xC1 0xC2 0xC3 with crcEn := true, res := 0xA3 }) =
      some ([0x88, 0xA3, 0x02], .three, .txReady, .wr, .ok) := by decide
theorem test_buildWrr_plain :
    frameView (execWord 0x90020000#32 { stateWith .zero .idle .rd 0xC1 0xC2 0xC3 with res := 0xA3 }) =
      some ([0x88, 0xA3, 0xC3], .two, .txReady, .wr, .ok) := by decide
theorem test_buildRd_crc :
    frameView (execWord 0x501F0000#32
      { stateWith .zero .idle .rd 0xC1 0xC2 0xC3 with crcEn := true, chipAddr := 3#2 }) =
      some ([0x7F, 0x00, 0x18], .three, .txReady, .rd, .ok) := by decide
theorem test_buildRd_plain :
    frameView (execWord 0x50050000#32 (stateWith .zero .idle .rd 0xC1 0xC2 0xC3)) =
      some ([0x14, 0x00, 0x00], .two, .txReady, .rd, .ok) := by decide

/-- Section 2.8: a read exchange with code 0 and rx [0x14, 0x5A, 0x1A]. -/
theorem test_xfer_read :
    frameView (execXfer (answering (stateWith .three .txReady .rd 0x14 0x00 0x1A) (.answer 0#32 0x14 0x5A 0x1A))) =
      some ([0x14, 0x5A, 0x1A], .three, .rxDone, .rd, .ok) := by decide
/-- Section 2.8: a write exchange with code -110. -/
theorem test_xfer_write_failed :
    (nextOf (execXfer (answering (stateWith .three .txReady .wr 0x85 0x0F 0x1D)
      (.answer (BitVec.ofInt 32 (-110)) 0xEE 0xEE 0xEE)))).map
        (fun t => ([t.byte 0, t.byte 1, t.byte 2], t.phase, t.terr, t.status)) =
      some ([0x85, 0x0F, 0x1D], .idle, BitVec.ofInt 32 (-110), .eTransport) := by decide

/-- Section 2.9: accepted, with byte2[7:5] set. -/
theorem test_chkRd_ok :
    (nextOf (execChkRd { stateWith .three .rxDone .rd 0x14 0x5A 0xFA with res := 0x99 })).map
      (fun t => (t.res, t.phase, t.status)) = some (0x5A, .idle, .ok) := by decide
/-- Section 2.9: the request echoed back is refused. -/
theorem test_chkRd_mismatch :
    (nextOf (execChkRd { stateWith .three .rxDone .rd 0x14 0x00 0x1A with res := 0x99 })).map
      (fun t => (t.res, t.phase, t.status)) = some (0x99, .idle, .eIntegrity) := by decide
/-- Section 2.9, the row under STRICT. -/
theorem test_check_strict :
    (State.checkResponse { Config.spec with rxCrcHighPolicy := .strict }
      (stateWith .three .rxDone .rd 0x14 0x5A 0xFA)).status = .eIntegrity := by decide

/-- Section 2.10. -/
theorem test_merge : (nextOf (execMerge 0x81#8 0xFF#8 { State.reset with res := 0x3C })).map State.res =
    some 0xBD#8 := by decide
theorem test_merge_illegal : nextOf (execWord 0x80010F03#32 { State.reset with res := 0x5A }) =
    some { State.reset with res := 0x5A, status := .eInvalid } := by decide

/-- Rule R100's worked example. -/
theorem test_nop : nextOf (execNop { State.reset with status := .eSequence }) = some State.reset := by decide

/-! ### Other parts -/

/-- Rule R80: with all-zero input the register returns to 0x1F after exactly 15 steps, through the listed values. -/
theorem test_crc_zero_input :
    (List.range 16).map (fun n => (List.replicate n false).foldl (crc5Step Config.spec) 0x1F#5) =
      [0x1F, 0x0B, 0x16, 0x19, 0x07, 0x0E, 0x1C, 0x0D, 0x1A, 0x01, 0x02, 0x04, 0x08, 0x10, 0x15, 0x1F] := by decide

/-- Rule R4: the header of a write to register 1 at chip 1 under both layouts. -/
theorem test_header : header .doc .wr 1#5 1#2 = 0x85#8 ∧ header .alt .wr 1#5 1#2 = 0x43#8 := by decide

/-- Rule R60's two examples, and an operand that does not fit. -/
theorem test_assemble_text :
    assembleLine ['b', 'u', 'i', 'l', 'd', '.', 'w', 'r', ' ', '0', 'x', '0', '5', ',', ' ', '0', 'x', 'A', 'B'] =
      some [0x4005AB00#32] ∧
    assembleLine ['c', 'f', 'g', ' ', '1', ',', ' ', '2', ' ', ';', ' ', 'x'] = some [0x10050000#32] ∧
    assembleLine ['c', 'f', 'g', ' ', '1', ',', '4'] = none ∧
    assembleLine ['x', 'f', 'e', 'r', ' ', '1'] = none := by decide

/-- Rules R32 and R35: the wire of one byte, 0x85 = 10000101. -/
theorem test_transactionEvents : transactionEvents [0x85#8] =
    [.select, .bit true, .bit false, .bit false, .bit false, .bit false, .bit true, .bit false, .bit true,
     .deselect] := by decide

/-- A word placed at the port of the reset state is what the first step runs. -/
theorem test_step_placed :
    (nextOf (step (State.reset.withFetchWord 32 0x20850F00))).map (fun t => (t.res, t.status, t.index)) =
      some (0x1D, .ok, 1) := by decide

/-! ### Witnesses: the hypotheses of the statements can be met -/

/-- A read response that is right: rule R98's example. -/
def validResponse : State := stateWith .three .rxDone .rd 0x14 0x5A 0x1A

/-- A read request of three bytes that waits, answered with code 0 (rule R97's example). -/
def readWaiting : State := answering (stateWith .three .txReady .rd 0x14 0x00 0x1A) (.answer 0#32 0x14 0x5A 0x1A)

/-- A read request of two bytes that waits, answered with code 0 (section 2.8). -/
def readWaitingShort : State := answering (stateWith .two .txReady .rd 0x14 0x00 0x00) (.answer 0#32 0x14 0x5A 0x00)

/-- Write frames of three and two bytes that wait, answered with code 0. -/
def writeWaiting : State := answering (stateWith .three .txReady .wr 0x85 0x0F 0x1D) (.answer 0#32 0xEE 0xEE 0xEE)
def writeWaitingShort : State := answering (stateWith .two .txReady .wr 0x88 0xA3 0xC3) (.answer 0#32 0x00 0x00 0x00)

/-- A reset state whose Host issues one word. -/
def issuing (w : CmdWord) : State := { State.reset with inputs := [.command w] }

/-- A reset state whose Transport answers two exchanges: a read of 0xA5 and a write (program P3). -/
def twoAnswers : State := { State.reset with answers := [.answer 0#32 0x00 0xA5 0x00, .answer 0#32 0x00 0x00 0x00] }

/-- The same Transport, but it fails the second exchange. -/
def readThenFailure : State := { State.reset with answers := [.answer 0#32 0x00 0xA5 0x00, .answer 5#32 0x00 0x00 0x00] }

theorem witness_DecodeCrcIgnoresTopTwoBits : 0xD4#8 &&& 0x3F#8 = validResponse.byte 0 &&& 0x3F#8 := by decide

theorem witness_CheckDetectsErrors :
    (validResponse.phase = .rxDone ∧ validResponse.len = .three ∧
      crcByte (crc5Dec Config.spec (validResponse.byte 0) (validResponse.byte 1)) = validResponse.byte 2 &&& 0x1F#8) ∧
    (⟨0x20, 0, 0⟩ : ErrorPattern) ∈ protectedBits ∧ (⟨0, 0x80, 0⟩ : ErrorPattern) ∈ protectedBits ∧
    (⟨0, 0, 0x10⟩ : ErrorPattern) ∈ protectedBits ∧
    (0xC0#8 &&& 0x3F#8 = 0 ∧ 0xE0#8 &&& 0x1F#8 = 0) ∧ protectedBits.length = 19 ∧
    (∀ q ∈ undetectedPairs, q.1 ∈ protectedBits ∧ q.2 ∈ protectedBits ∧ q.1 ≠ q.2) := by decide

theorem witness_CheckDetectsErrors_state : validResponse.HoldsValidResponse := witness_CheckDetectsErrors.1

/-- CRC on and CRC off, for the builders' clauses. -/
theorem witness_WriteBuildersLeaveFrame :
    State.crcEn { State.reset with crcEn := true } = true ∧ State.reset.crcEn = false := by decide

theorem witness_ReadBuilderLeavesRequest :
    State.crcEn { State.reset with crcEn := true } = true ∧ State.reset.crcEn = false := by decide

/-- XFER and CHK_RD give a next state, and XFER a fault, for the clauses on CFG. -/
theorem witness_CfgDoesNotChangeBuiltFrame :
    (nextOf (exec .xfer readWaiting)).isSome = true ∧ (nextOf (exec .chkRd validResponse)).isSome = true ∧
    (match exec .xfer (answering (stateWith .two .txReady .rd 0 0 0) .never) with
      | .next _ => false | .fault f => decide (f = .transportNeverAnswers) | .refused _ => false) = true := by decide

theorem witness_XferReadTakesResponse :
    (readWaiting.phase = .txReady ∧ readWaiting.kind = .rd ∧ (readWaiting.len = .two ∨ readWaiting.len = .three) ∧
      readWaiting.transportAnswers readWaiting.pendingFrame = .answer 0#32 0x14 0x5A 0x1A) ∧
    (readWaitingShort.phase = .txReady ∧ readWaitingShort.kind = .rd ∧ readWaitingShort.len = .two ∧
      readWaitingShort.transportAnswers readWaitingShort.pendingFrame = .answer 0#32 0x14 0x5A 0x00) := by decide

theorem witness_XferWriteDiscardsResponse :
    (writeWaiting.phase = .txReady ∧ writeWaiting.kind = .wr ∧ writeWaiting.len = .three ∧
      writeWaiting.transportAnswers writeWaiting.pendingFrame = .answer 0#32 0xEE 0xEE 0xEE) ∧
    (writeWaitingShort.phase = .txReady ∧ writeWaitingShort.kind = .wr ∧ writeWaitingShort.len = .two ∧
      writeWaitingShort.transportAnswers writeWaitingShort.pendingFrame = .answer 0#32 0 0 0) := by decide

/-- A frame of a kind and a length that waits, and a Transport that answers it with a nonzero code. -/
abbrev FailedExchange (len : FrameLen) (kind : Kind) (code : TCode) : Prop :=
  let s := answering (stateWith len .txReady kind 0x14 0x00 0x1A) (.answer code 1 2 3)
  s.phase = .txReady ∧ (s.len = .two ∨ s.len = .three) ∧ s.kind = kind ∧
    s.transportAnswers s.pendingFrame = .answer code 1 2 3 ∧ code ≠ 0#32

/-- A failed exchange of each kind and each length, with the smallest and the largest nonzero code. -/
theorem witness_XferReportsTransportError :
    ∀ len ∈ [FrameLen.two, FrameLen.three], ∀ kind ∈ [Kind.rd, Kind.wr],
      FailedExchange len kind 1#32 ∧ FailedExchange len kind 0xFFFFFFFF#32 := by decide

theorem witness_OutOfSequenceChangesOnlyStatus :
    State.reset.phase ≠ .txReady ∧ validResponse.phase ≠ .txReady ∧ State.reset.phase ≠ .rxDone ∧
    readWaiting.phase ≠ .rxDone := by decide

theorem witness_SilentTransportStopsXfer :
    ∀ len ∈ [FrameLen.two, FrameLen.three],
      let s := answering (stateWith len .txReady .rd 0x14 0x00 0x1A) .never;
      s.phase = .txReady ∧ (s.len = .two ∨ s.len = .three) ∧ s.transportAnswers s.pendingFrame = .never := by decide

/-- An accepted response, a rejected one and an unchecked one. -/
theorem witness_ChkRdDeliversOrRejects :
    (validResponse.phase = .rxDone ∧ validResponse.len = .three ∧
      crc5Dec Config.spec (validResponse.byte 0) (validResponse.byte 1) = (validResponse.byte 2).extractLsb' 0 5) ∧
    (let s := stateWith .three .rxDone .rd 0x14 0x5B 0x1A;
      s.phase = .rxDone ∧ s.len = .three ∧
        crc5Dec Config.spec (s.byte 0) (s.byte 1) ≠ (s.byte 2).extractLsb' 0 5) ∧
    (let s := stateWith .two .rxDone .rd 0x14 0x5B 0x00;
      s.phase = .rxDone ∧ s.len ≠ .three) := by decide

theorem witness_MergeRule :
    (CmdWord.op 0x80000F03#32 = 0x8#4 ∧ 0x80000F03#32 &&& 0xFFFF0000#32 = 0x80000000#32) ∧
    (CmdWord.op 0x80010F03#32 = 0x8#4 ∧ (0x80010F03#32 : CmdWord).extractLsb' 16 12 ≠ 0#12) ∧
    (CmdWord.op 0x88000F03#32 = 0x8#4 ∧ (0x88000F03#32 : CmdWord).extractLsb' 16 12 ≠ 0#12) ∧
    State.res { State.reset with res := 0xA5 } = 0xA5#8 := by decide

theorem witness_NopRule :
    CmdWord.op 0x00000001#32 = 0x0#4 ∧ (0x00000001#32 : CmdWord).extractLsb' 0 28 ≠ 0#28 ∧
    CmdWord.op 0x08000000#32 = 0x0#4 ∧ (0x08000000#32 : CmdWord).extractLsb' 0 28 ≠ 0#28 ∧
    State.status { State.reset with status := .eSequence } = .eSequence := by decide

theorem witness_EncodeOfDecode : decode 0x4005AB00#32 = .command (.buildWr 5#5 0xAB#8) := by decide

theorem witness_OpcodeRowsDisjoint :
    (opcodeMap[9]?).map (fun r => (r.pattern, r.mask)) = some (0x90000000#32, 0xFFE0FFFF#32) ∧
    0x901F0000#32 &&& 0xFFE0FFFF#32 = 0x90000000#32 := by decide

/-- An OP from 0xA to 0xF at both ends, and a set "must be 0" bit, match no row. -/
theorem witness_IllegalWordsChangeOnlyStatus :
    (∀ r ∈ opcodeMap, 0xA0000000#32 &&& r.mask ≠ r.pattern ∧ 0xFFFFFFFF#32 &&& r.mask ≠ r.pattern ∧
      0x402FFF00#32 &&& r.mask ≠ r.pattern) ∧
    0xA#4 ≤ CmdWord.op 0xA0000000#32 ∧ 0xA#4 ≤ CmdWord.op 0xFFFFFFFF#32 := by decide

theorem witness_StepRunsDecodedCommand :
    (issuing 0x00000000#32).input = some (.command 0x00000000#32) ∧ decode 0x00000000#32 = .command .nop ∧
    (issuing 0xA0000000#32).input = some (.command 0xA0000000#32) ∧
    decode 0xA0000000#32 = .illegal .unassignedOp := by decide

theorem witness_StepMovesIndexByOne : (nextOf (step (issuing 0x10050000#32))).isSome = true := by decide

theorem witness_ResetSetsEveryElement : State.input { validResponse with inputs := [.reset] } = some .reset := by decide

/-- XFER legal and not, CHK_RD legal and not, and a builder, each with a next state. -/
theorem witness_PhaseTransitions :
    (nextOf (exec .xfer readWaiting)).isSome = true ∧ (nextOf (exec .xfer State.reset)).isSome = true ∧
    (nextOf (exec .chkRd validResponse)).isSome = true ∧ (nextOf (exec .chkRd State.reset)).isSome = true ∧
    (nextOf (exec (.buildRd 0#5) validResponse)).isSome = true := by decide

/-- One command for each error. -/
theorem witness_ErrorsArePrecise :
    (nextOf (execWord 0x60000001#32 readWaiting)).map State.status = some .eInvalid ∧
    (nextOf (execWord 0x60000000#32 State.reset)).map State.status = some .eSequence ∧
    (nextOf (execWord 0x70000000#32 (stateWith .three .rxDone .rd 0x14 0x5B 0x1A))).map State.status =
      some .eIntegrity ∧
    (nextOf (execWord 0x60000000#32 (answering writeWaiting (.answer 5#32 0 0 0)))).map State.status =
      some .eTransport ∧
    (nextOf (execWord 0x60000000#32 (answering writeWaitingShort (.answer 5#32 0 0 0)))).map State.status =
      some .eTransport := by decide

theorem witness_OnlyTheirWritersChangeElements : (nextOf (exec .nop validResponse)).isSome = true := by decide

theorem witness_OneExchangePerXfer :
    (let s := { readWaiting with inputs := [.command 0x60000000#32] };
      s.phase = .txReady ∧ s.input = some (.command 0x60000000#32) ∧ (nextOf (step s)).isSome = true) ∧
    (nextOf (step (issuing 0x60000000#32))).isSome = true := by decide

theorem witness_WireBitsMakeTheBytes : ([0x85#8, 0x0F#8] : List Byte)[1]? = some 0x0F#8 ∧ 7 < 8 := by decide

theorem witness_CanonicalBuffersAreEqual :
    Memory.wf (Memory.writeFirst [(0, 0xFF)] [0x00, 0xA5, 0x01]) = true ∧
    Memory.writeFirst [(0, 0xFF)] [0x00, 0xA5, 0x01] = [(1, 0xA5), (2, 0x01)] := by
  decide

/-- A good state that is not the reset state: a read request of two bytes waits. -/
theorem witness_StepKeepsInvariant :
    State.Inv { readWaitingShort with inputs := [.command 0x60000000#32] } ∧
    (nextOf (step { readWaitingShort with inputs := [.command 0x60000000#32] })).isSome = true := by
  refine ⟨⟨⟨fun _ => .inl rfl, fun h => nomatch h⟩, rfl, fun _ => ⟨0x14, 0x00, rfl, fun _ => rfl, .inl rfl⟩, ?_⟩, by decide⟩
  intro e he
  exact nomatch he

theorem witness_GoodStatesAreSafe : State.Inv { readWaitingShort with inputs := [.command 0x60000000#32] } :=
  witness_StepKeepsInvariant.1

/-- A state one step from reset, in which BUILD_RD has run. -/
theorem witness_ReachableStatesMeetR22 : ∃ s, Reachable s ∧ s.phase = .txReady ∧
    (nextOf (exec (.buildWr 1#5 0x0F#8) s)).isSome = true ∧ (nextOf (exec (.buildWrr 1#5) s)).isSome = true ∧
    (nextOf (exec (.buildRd 1#5) s)).isSome = true :=
  ⟨_, .step (.start [.command 0x50000000#32] [] 0) rfl, rfl, rfl, rfl, rfl⟩

theorem witness_WriteTransaction :
    twoAnswers.transportAnswers (wireImage twoAnswers 1#1 2#5 0xA3#8) = .answer 0#32 0x00 0xA5 0x00 ∧
    (answering State.reset (.answer 5#32 0 0 0)).transportAnswers
      (wireImage State.reset 1#1 2#5 0xA3#8) = .answer 5#32 0 0 0 := by decide

/-- Each of the three ways: a transport error, a CRC mismatch, a value delivered. -/
theorem witness_ReadTransaction :
    (answering State.reset (.answer 5#32 0 0 0)).transportAnswers (wireImage State.reset 0#1 5#5 0x00#8) =
      .answer 5#32 0 0 0 ∧
    (let s := answering { State.reset with crcEn := true } (.answer 0#32 0x14 0x5B 0x1A);
      s.transportAnswers (wireImage s 0#1 5#5 0x00#8) = .answer 0#32 0x14 0x5B 0x1A ∧ s.crcEn = true ∧
        crc5Dec Config.spec 0x14#8 0x5B#8 ≠ (0x1A#8 : Byte).extractLsb' 0 5) ∧
    (let s := answering { State.reset with crcEn := true } (.answer 0#32 0x14 0x5A 0x1A);
      s.transportAnswers (wireImage s 0#1 5#5 0x00#8) = .answer 0#32 0x14 0x5A 0x1A ∧ s.crcEn = true ∧
        crc5Dec Config.spec 0x14#8 0x5A#8 = (0x1A#8 : Byte).extractLsb' 0 5) := by decide

/-- Program P3's read ends OK, and its write is answered; a read the Transport fails ends otherwise. -/
theorem witness_UpdateTransaction :
    ((nextOf (issueSource (.read 2) twoAnswers)).map (fun u => (u.status, u.res, u.transportAnswers
      (wireImage u 1#1 2#5 ((u.res &&& ~~~0x0F#8) ||| (0x03#8 &&& 0x0F#8)))))) =
        some (.ok, 0xA5, .answer 0#32 0x00 0x00 0x00) ∧
    (nextOf (issueSource (.read 2) (answering State.reset (.answer 5#32 0 0 0)))).map State.status =
      some .eTransport := by decide

/-- An update that ends OK, and one whose write the Transport fails. -/
theorem witness_UpdatePreservesUnmaskedBits :
    (nextOf (issueSource (.read 2) twoAnswers)).map State.status = some .ok ∧
    (nextOf (issueSource (.update 2 0x0F 0x03) twoAnswers)).map (fun t => (t.status, t.byte 1)) =
      some (.ok, 0xA3) ∧
    (nextOf (issueSource (.update 2 0x0F 0x03) readThenFailure)).map (fun t => (t.status, t.byte 1)) =
      some (.eTransport, 0xA3) := by decide

theorem witness_SteppedProgramAgreesWithIssue :
    (nextOf (issue [0x10010000#32, 0x20850F00#32] State.reset)).map State.status = some .ok := by decide

end Sys2Proof.Tests
end

section
/-! PROOFS. The CRC byte (`zext_8` of a CRC5) and the comparison CHK_RD makes with a received one (rule R5). -/

namespace Sys2Proof.Machine

/-! ### The two fields of a CRC byte -/

theorem crcByte_eq_append (c : Crc5) : crcByte c = 0#3 ++ c :=
  BitVec.setWidth_eq_append (by decide)

@[simp] theorem crcByte_extractLsb'_low (c : Crc5) : (crcByte c).extractLsb' 0 5 = c := by
  rw [crcByte_eq_append]
  exact BitVec.extractLsb'_append_eq_right

@[simp] theorem crcByte_extractLsb'_high (c : Crc5) : (crcByte c).extractLsb' 5 3 = 0#3 := by
  rw [crcByte_eq_append]
  exact BitVec.extractLsb'_append_eq_left

/-- A byte is the concatenation of its bits [7:5] and [4:0], so these two fields decide an equation with a CRC byte. -/
theorem crcByte_eq_iff (c : Crc5) (b : Byte) :
    crcByte c = b ↔ b.extractLsb' 0 5 = c ∧ b.extractLsb' 5 3 = 0#3 := by
  constructor
  · rintro rfl
    exact ⟨crcByte_extractLsb'_low c, crcByte_extractLsb'_high c⟩
  · rintro ⟨hlow, hhigh⟩
    calc crcByte c = 0#3 ++ c := crcByte_eq_append c
      _ = b.extractLsb' 5 3 ++ b.extractLsb' 0 5 := by rw [hlow, hhigh]
      _ = b := BitVec.extractLsb'_append_extractLsb' (w := 3) (len := 5)

/-- The mask of IGNORE is itself the low part of a byte: it keeps bits [4:0] and clears bits [7:5]. -/
theorem and_lowMask_eq_crcByte (b : Byte) : b &&& 0x1F#8 = crcByte (b.extractLsb' 0 5) := by
  refine ((crcByte_eq_iff _ _).mpr ⟨?low, ?high⟩).symm
  case low =>
    calc (b &&& 0x1F#8).extractLsb' 0 5 = b.extractLsb' 0 5 &&& BitVec.allOnes 5 := BitVec.extractLsb'_and
      _ = b.extractLsb' 0 5 := BitVec.and_allOnes
  case high =>
    calc (b &&& 0x1F#8).extractLsb' 5 3 = b.extractLsb' 5 3 &&& 0#3 := BitVec.extractLsb'_and
      _ = 0#3 := BitVec.and_zero

/-! ### The comparison under each policy (rule R5) -/

theorem rxCrcMatches_strict_iff (c : Crc5) (received : Byte) :
    rxCrcMatches .strict c received = true ↔
      received.extractLsb' 0 5 = c ∧ received.extractLsb' 5 3 = 0#3 :=
  beq_iff_eq.trans (crcByte_eq_iff c received)

/-- IGNORE compares two CRC bytes, so the high bits of the received byte drop out. -/
theorem rxCrcMatches_ignore_iff (c : Crc5) (received : Byte) :
    rxCrcMatches .ignore c received = true ↔ received.extractLsb' 0 5 = c := by
  calc rxCrcMatches .ignore c received = true
      ↔ crcByte c = received &&& 0x1F#8 := beq_iff_eq
    _ ↔ crcByte c = crcByte (received.extractLsb' 0 5) := by rw [and_lowMask_eq_crcByte]
    _ ↔ received.extractLsb' 0 5 = c := by simp [crcByte_eq_iff]

/-- Settles O21: the configuration's field, and the characterisation of each policy. -/
theorem receivedCrcPolicies : Obligations.ReceivedCrcPolicies :=
  ⟨rfl, fun c received => ⟨rxCrcMatches_ignore_iff c received, rxCrcMatches_strict_iff c received⟩⟩

end Sys2Proof.Machine
end

section
/-! PROOFS. The opcode map (rule R56): what a row asks of a word's fields, and that rows, decoder and encoder
speak of the same words (rules R57, R59). -/

namespace Sys2Proof

/-! ### A word is its five fields (rule R54) -/

/-- The fields stand side by side and fill the word. -/
theorem append_fields (w : CmdWord) :
    CmdWord.op w ++ CmdWord.rsv w ++ CmdWord.fieldA w ++ CmdWord.fieldB w ++ CmdWord.fieldC w = w := by
  calc w.extractLsb' 28 4 ++ w.extractLsb' 24 4 ++ w.extractLsb' 16 8 ++ w.extractLsb' 8 8 ++ w.extractLsb' 0 8
      = w.extractLsb' 24 8 ++ w.extractLsb' 16 8 ++ w.extractLsb' 8 8 ++ w.extractLsb' 0 8 :=
        congrArg (· ++ _ ++ _ ++ _) (BitVec.extractLsb'_append_extractLsb'_eq_extractLsb' rfl)
    _ = w.extractLsb' 16 16 ++ w.extractLsb' 8 8 ++ w.extractLsb' 0 8 :=
        congrArg (· ++ _ ++ _) (BitVec.extractLsb'_append_extractLsb'_eq_extractLsb' rfl)
    _ = w.extractLsb' 8 24 ++ w.extractLsb' 0 8 :=
        congrArg (· ++ _) (BitVec.extractLsb'_append_extractLsb'_eq_extractLsb' rfl)
    _ = w.extractLsb' 0 32 := BitVec.extractLsb'_append_extractLsb'_eq_extractLsb' rfl
    _ = w := BitVec.extractLsb'_eq_self

theorem word_eq_iff (w v : CmdWord) :
    w = v ↔ CmdWord.op w = CmdWord.op v ∧ CmdWord.rsv w = CmdWord.rsv v ∧ CmdWord.fieldA w = CmdWord.fieldA v ∧
      CmdWord.fieldB w = CmdWord.fieldB v ∧ CmdWord.fieldC w = CmdWord.fieldC v := by
  constructor
  · rintro rfl
    exact ⟨rfl, rfl, rfl, rfl, rfl⟩
  · rintro ⟨hop, hrsv, ha, hb, hc⟩
    rw [← append_fields w, ← append_fields v, hop, hrsv, ha, hb, hc]

theorem cmdWord_eq_iff (op : BitVec 4) (a b c : Byte) (w : CmdWord) :
    cmdWord op a b c = w ↔ op = CmdWord.op w ∧ CmdWord.rsv w = 0#4 ∧ a = CmdWord.fieldA w ∧ b = CmdWord.fieldB w ∧
      c = CmdWord.fieldC w := by
  simp [word_eq_iff, eq_comm (a := 0#4)]

/-! ### Operand A and its operands (rule R55) -/

@[simp] theorem en_cmdWord (op : BitVec 4) (en : Bool) (chip : ChipAddr) (b c : Byte) :
    CmdWord.en (cmdWord op (0#5 ++ chip ++ BitVec.ofBool en) b c) = en := by
  simp only [CmdWord.en, fieldA_cmdWord, cfgOperand_getLsbD, Nat.zero_lt_one, if_true]

@[simp] theorem chipf_cmdWord (op : BitVec 4) (en : Bool) (chip : ChipAddr) (b c : Byte) :
    CmdWord.chipf (cmdWord op (0#5 ++ chip ++ BitVec.ofBool en) b c) = chip := by
  apply BitVec.eq_of_getLsbD_eq; intro k hk
  simp [CmdWord.chipf, cfgOperand_getLsbD, hk]

theorem addrOperand_and_mask (addr : RegAddr) : addrOperand addr &&& 0xE0#8 = 0#8 := by
  revert addr; decide

theorem cfgOperand_and_mask (en : Bool) (chip : ChipAddr) :
    (0#5 ++ chip ++ BitVec.ofBool en : Byte) &&& 0xF8#8 = 0#8 := by
  revert en chip; decide

/-- With A[7:5] clear, operand A is its ADDR. -/
theorem addrOperand_addr (w : CmdWord) (h : CmdWord.fieldA w &&& 0xE0#8 = 0#8) :
    addrOperand (CmdWord.addr w) = CmdWord.fieldA w := by
  unfold addrOperand CmdWord.addr
  generalize CmdWord.fieldA w = a at h ⊢
  revert a; decide

/-- With A[7:3] clear, operand A is its CHIPF and EN. -/
theorem cfgOperand_chipf_en (w : CmdWord) (h : CmdWord.fieldA w &&& 0xF8#8 = 0#8) :
    (0#5 ++ CmdWord.chipf w ++ BitVec.ofBool (CmdWord.en w) : Byte) = CmdWord.fieldA w := by
  unfold CmdWord.chipf CmdWord.en
  generalize CmdWord.fieldA w = a at h ⊢
  revert a; decide

/-! ### What a row asks of a word -/

/-- Every mask covers OP and RSV, and a pattern is its OP followed by zeros. -/
theorem opcodeMap_shape : ∀ r ∈ opcodeMap,
    CmdWord.op r.mask = BitVec.allOnes 4 ∧ CmdWord.rsv r.mask = BitVec.allOnes 4 ∧
      r.pattern = cmdWord (CmdWord.op r.pattern) 0 0 0 := by
  decide

/-- A row matches the words with its OP and with zeros in RSV and in the operand bits under its mask. -/
theorem match_iff {r : OpRow} (hr : r ∈ opcodeMap) (w : CmdWord) :
    w &&& r.mask = r.pattern ↔ CmdWord.op w = CmdWord.op r.pattern ∧ CmdWord.rsv w = 0#4 ∧
      CmdWord.fieldA w &&& CmdWord.fieldA r.mask = 0#8 ∧ CmdWord.fieldB w &&& CmdWord.fieldB r.mask = 0#8 ∧
      CmdWord.fieldC w &&& CmdWord.fieldC r.mask = 0#8 := by
  obtain ⟨hop, hrsv, hpattern⟩ := opcodeMap_shape r hr
  have op_and : CmdWord.op (w &&& r.mask) = CmdWord.op w &&& CmdWord.op r.mask := BitVec.extractLsb'_and
  have rsv_and : CmdWord.rsv (w &&& r.mask) = CmdWord.rsv w &&& CmdWord.rsv r.mask := BitVec.extractLsb'_and
  have fieldA_and : CmdWord.fieldA (w &&& r.mask) = CmdWord.fieldA w &&& CmdWord.fieldA r.mask :=
    BitVec.extractLsb'_and
  have fieldB_and : CmdWord.fieldB (w &&& r.mask) = CmdWord.fieldB w &&& CmdWord.fieldB r.mask :=
    BitVec.extractLsb'_and
  have fieldC_and : CmdWord.fieldC (w &&& r.mask) = CmdWord.fieldC w &&& CmdWord.fieldC r.mask :=
    BitVec.extractLsb'_and
  rw [eq_comm, hpattern, cmdWord_eq_iff, op_and, rsv_and, fieldA_and, fieldB_and, fieldC_and, hop, hrsv,
    BitVec.and_allOnes, BitVec.and_allOnes, op_cmdWord]
  simp [eq_comm]

/-- The rows are disjoint because each has an OP of its own. -/
theorem row_eq_of_match {r q : OpRow} (hr : r ∈ opcodeMap) (hq : q ∈ opcodeMap) {w : CmdWord}
    (hwr : w &&& r.mask = r.pattern) (hwq : w &&& q.mask = q.pattern) : r = q := by
  have distinct_ops : (opcodeMap.map (fun r => CmdWord.op r.pattern)).Nodup := by decide
  obtain ⟨hop_r, -⟩ := (match_iff hr w).mp hwr
  obtain ⟨hop_q, -⟩ := (match_iff hq w).mp hwq
  exact List.inj_on_of_nodup_map distinct_ops hr hq (hop_r.symm.trans hop_q)

theorem op_lt_of_match {r : OpRow} (hr : r ∈ opcodeMap) {w : CmdWord} (hw : w &&& r.mask = r.pattern) :
    CmdWord.op w < 0xA#4 := by
  have assigned_ops : ∀ r ∈ opcodeMap, CmdWord.op r.pattern < 0xA#4 := by decide
  obtain ⟨hop, -⟩ := (match_iff hr w).mp hw
  exact hop ▸ assigned_ops r hr

/-! ### The decoder in terms of the rows (rule R59) -/

theorem decode_eq_command_iff (w : CmdWord) (i : Instr) :
    decode w = .command i ↔ ∃ r ∈ opcodeMap, w &&& r.mask = r.pattern ∧ r.command w = i := by
  unfold decode
  cases hfind : opcodeMap.find? (fun r => w &&& r.mask == r.pattern) with
  | none =>
    have no_match := List.find?_eq_none.mp hfind
    simp only [beq_iff_eq] at no_match
    simpa using fun r hr hw => absurd hw (no_match r hr)
  | some q =>
    have hq : q ∈ opcodeMap := List.mem_of_find?_eq_some hfind
    have hwq : w &&& q.mask = q.pattern := by simpa using List.find?_some hfind
    constructor
    · intro h
      exact ⟨q, hq, hwq, Decoded.command.inj h⟩
    · rintro ⟨r, hr, hwr, rfl⟩
      rw [row_eq_of_match hr hq hwr hwq]

theorem decode_illegal_iff (w : CmdWord) :
    (∃ why, decode w = .illegal why) ↔ ∀ r ∈ opcodeMap, w &&& r.mask ≠ r.pattern := by
  cases hd : decode w with
  | command i =>
    obtain ⟨r, hr, hw, -⟩ := (decode_eq_command_iff w i).mp hd
    simpa using ⟨r, hr, hw⟩
  | illegal why =>
    refine ⟨fun _ r hr hw => ?_, fun _ => ⟨why, rfl⟩⟩
    have := (decode_eq_command_iff w (r.command w)).mpr ⟨r, hr, hw, rfl⟩
    simp [hd] at this

/-! ### The two round trips, row by row -/

/-- A mask that covers OP and RSV keeps OP and clears operands that are zero under it. -/
theorem cmdWord_and_mask (op : BitVec 4) {a b c : Byte} (ma mb mc : Byte) (ha : a &&& ma = 0#8) (hb : b &&& mb = 0#8)
    (hc : c &&& mc = 0#8) :
    cmdWord op a b c &&& (BitVec.allOnes 4 ++ BitVec.allOnes 4 ++ ma ++ mb ++ mc) = cmdWord op 0 0 0 := by
  rw [cmdWord_and, ha, hb, hc, BitVec.and_allOnes]
  rfl

/-- The word of a command matches the command's row, and the row reads the operands back. -/
theorem encode_matches_row (i : Instr) :
    ∃ r ∈ opcodeMap, encode i &&& r.mask = r.pattern ∧ r.command (encode i) = i := by
  cases i with
  | nop => exact ⟨opcodeMap[0], List.getElem_mem _, rfl, rfl⟩
  | cfg en chip =>
    exact ⟨opcodeMap[1], List.getElem_mem _,
      cmdWord_and_mask 0x1#4 0xF8 0xFF 0xFF (cfgOperand_and_mask en chip) rfl rfl,
      congrArg₂ Instr.cfg (en_cmdWord ..) (chipf_cmdWord ..)⟩
  | crcEnc b0 b1 =>
    exact ⟨opcodeMap[2], List.getElem_mem _,
      cmdWord_and_mask 0x2#4 0x00 0x00 0xFF BitVec.and_zero BitVec.and_zero rfl,
      congrArg₂ Instr.crcEnc (fieldA_cmdWord ..) (fieldB_cmdWord ..)⟩
  | crcDec b0 b1 =>
    exact ⟨opcodeMap[3], List.getElem_mem _,
      cmdWord_and_mask 0x3#4 0x00 0x00 0xFF BitVec.and_zero BitVec.and_zero rfl,
      congrArg₂ Instr.crcDec (fieldA_cmdWord ..) (fieldB_cmdWord ..)⟩
  | buildWr addr val =>
    exact ⟨opcodeMap[4], List.getElem_mem _,
      cmdWord_and_mask 0x4#4 0xE0 0x00 0xFF (addrOperand_and_mask addr) BitVec.and_zero rfl,
      congrArg₂ Instr.buildWr (addr_cmdWord ..) (fieldB_cmdWord ..)⟩
  | buildRd addr =>
    exact ⟨opcodeMap[5], List.getElem_mem _,
      cmdWord_and_mask 0x5#4 0xE0 0xFF 0xFF (addrOperand_and_mask addr) rfl rfl,
      congrArg Instr.buildRd (addr_cmdWord ..)⟩
  | xfer => exact ⟨opcodeMap[6], List.getElem_mem _, rfl, rfl⟩
  | chkRd => exact ⟨opcodeMap[7], List.getElem_mem _, rfl, rfl⟩
  | merge mask mval =>
    exact ⟨opcodeMap[8], List.getElem_mem _,
      cmdWord_and_mask 0x8#4 0xFF 0x00 0x00 rfl BitVec.and_zero BitVec.and_zero,
      congrArg₂ Instr.merge (fieldB_cmdWord ..) (fieldC_cmdWord ..)⟩
  | buildWrr addr =>
    exact ⟨opcodeMap[9], List.getElem_mem _,
      cmdWord_and_mask 0x9#4 0xE0 0xFF 0xFF (addrOperand_and_mask addr) rfl rfl,
      congrArg Instr.buildWrr (addr_cmdWord ..)⟩

/-- An operand that the mask covers whole is zero. -/
theorem zero_of_and_ones {b : Byte} (h : b &&& 0xFF#8 = 0#8) : 0#8 = b :=
  h.symm.trans BitVec.and_allOnes

/-- A word that a row matches is the word of the command the row reads from it: no bit of it is dropped. -/
theorem encode_command_of_match {r : OpRow} (hr : r ∈ opcodeMap) {w : CmdWord} (hw : w &&& r.mask = r.pattern) :
    encode (r.command w) = w := by
  obtain ⟨hop, hrsv, ha, hb, hc⟩ := (match_iff hr w).mp hw
  have word {op : BitVec 4} {a b c : Byte} (h : CmdWord.op w = op) (ha : a = CmdWord.fieldA w)
      (hb : b = CmdWord.fieldB w) (hc : c = CmdWord.fieldC w) : cmdWord op a b c = w :=
    (cmdWord_eq_iff op a b c w).mpr ⟨h.symm, hrsv, ha, hb, hc⟩
  simp only [opcodeMap, List.mem_cons, List.not_mem_nil, or_false] at hr
  obtain rfl | rfl | rfl | rfl | rfl | rfl | rfl | rfl | rfl | rfl := hr
  · -- NOP
    exact word hop (zero_of_and_ones ha) (zero_of_and_ones hb) (zero_of_and_ones hc)
  · -- CFG
    exact word hop (cfgOperand_chipf_en w ha) (zero_of_and_ones hb) (zero_of_and_ones hc)
  · -- CRC_ENC
    exact word hop rfl rfl (zero_of_and_ones hc)
  · -- CRC_DEC
    exact word hop rfl rfl (zero_of_and_ones hc)
  · -- BUILD_WR
    exact word hop (addrOperand_addr w ha) rfl (zero_of_and_ones hc)
  · -- BUILD_RD
    exact word hop (addrOperand_addr w ha) (zero_of_and_ones hb) (zero_of_and_ones hc)
  · -- XFER
    exact word hop (zero_of_and_ones ha) (zero_of_and_ones hb) (zero_of_and_ones hc)
  · -- CHK_RD
    exact word hop (zero_of_and_ones ha) (zero_of_and_ones hb) (zero_of_and_ones hc)
  · -- MERGE
    exact word hop (zero_of_and_ones ha) rfl rfl
  · -- BUILD_WRR
    exact word hop (addrOperand_addr w ha) (zero_of_and_ones hb) (zero_of_and_ones hc)

/-- Decoder and encoder are the two sides of one relation between words and commands. -/
theorem decode_eq_command_iff_encode (w : CmdWord) (i : Instr) : decode w = .command i ↔ encode i = w := by
  rw [decode_eq_command_iff]
  constructor
  · rintro ⟨r, hr, hw, rfl⟩
    exact encode_command_of_match hr hw
  · rintro rfl
    exact encode_matches_row i

end Sys2Proof

namespace Sys2Proof.Machine

/-! ### Every word is one command or illegal (rule R57) -/

theorem execWord_of_no_match {w : CmdWord} (h : ∀ r ∈ opcodeMap, w &&& r.mask ≠ r.pattern) (s : State) :
    execWord w s = .next (s.raise .eInvalid) := by
  obtain ⟨why, hd⟩ := (decode_illegal_iff w).mpr h
  simp [execWord, hd]

theorem one_command_or_illegal (w : CmdWord) :
    (∃! i : Instr, encode i = w) ∨ ((∃ why, decode w = .illegal why) ∧ ∀ i : Instr, encode i ≠ w) := by
  simp only [ne_eq, ← decode_eq_command_iff_encode]
  cases decode w with
  | command i => exact .inl ⟨i, rfl, fun j hj => (Decoded.command.inj hj).symm⟩
  | illegal why => exact .inr ⟨⟨why, rfl⟩, fun i hi => nomatch hi⟩

/-- Settles O27: an illegal word is one that no row matches, every row has an OP below 0xA, and a word's command is the
one it decodes to. -/
theorem illegalWordsChangeOnlyStatus : Obligations.IllegalWordsChangeOnlyStatus :=
  ⟨fun _ s h => execWord_of_no_match h s, fun _ hop _ hr hw => absurd (op_lt_of_match hr hw) (BitVec.not_lt.mpr hop),
    one_command_or_illegal⟩

end Sys2Proof.Machine
end

section
/-! PROOFS. The CRC5 functions (rules R70 to R73): one step bit by bit, and the bits each variant runs over. -/

namespace Sys2Proof.Machine

/-- One step by bits: bit `i` of the shifted register, and the feedback where the polynomial has a one. -/
theorem crc5Step_getLsbD (p : Config.Params) (r : Crc5) (d : Bool) (i : Nat) :
    (crc5Step p r d).getLsbD i = ((r <<< 1).getLsbD i ^^ ((d ^^ r.getLsbD 4) && p.crcPoly.getLsbD i)) := by
  unfold crc5Step
  cases d ^^ r.getLsbD 4 with
  | false => simp
  | true => simp

/-- The bits of `CRC_POLY` (rule R1). -/
theorem spec_crcPoly_getLsbD (i : Nat) :
    Config.spec.crcPoly.getLsbD i = decide (i = 0 ∨ i = 2 ∨ i = 4) := by
  by_cases hi : i < 5
  · revert i
    decide
  · rw [BitVec.getLsbD_of_ge _ _ (Nat.le_of_not_lt hi)]
    exact (decide_eq_false (by omega)).symm

/-- Settles O1: the polynomial's ones are its bits 4, 2 and 0, so the feedback enters the shifted register there. -/
theorem crcStepShiftsAndFeedsBack : Obligations.CrcStepShiftsAndFeedsBack := by
  refine ⟨fun r d => ?bits, rfl⟩
  case bits =>
    simp only [crc5Step_getLsbD, spec_crcPoly_getLsbD, BitVec.getLsbD_shiftLeft]
    simp

/-- The bits that the decode variant takes of byte0: bit 5 first, without the top two. -/
theorem msbBits_six (b : Byte) :
    msbBits 6 b = [b.getLsbD 5, b.getLsbD 4, b.getLsbD 3, b.getLsbD 2, b.getLsbD 1, b.getLsbD 0] := rfl

theorem crc5Enc_spec (b0 b1 : Byte) :
    crc5Enc Config.spec b0 b1 = crc5Run Config.spec (msbBits 8 b0 ++ msbBits 8 b1 ++ [false, false, false]) := by
  rw [List.append_assoc]
  rfl

theorem crc5Dec_spec (b0 b1 : Byte) :
    crc5Dec Config.spec b0 b1 = crc5Run Config.spec (msbBits 6 b0 ++ msbBits 8 b1 ++ [false, false, false]) := by
  rw [List.append_assoc]
  rfl

/-- Settles O2: a run is the fold by definition, and the variants differ in the bits they take of byte0 only. -/
theorem crcVariantsRunOverTheirBits : Obligations.CrcVariantsRunOverTheirBits := by
  refine ⟨fun _ => rfl, fun b0 b1 => ⟨?_, ?_⟩⟩
  · rw [crc5Enc_spec, msbBits_eight, msbBits_eight]
    rfl
  · rw [crc5Dec_spec, msbBits_six, msbBits_eight]
    rfl

end Sys2Proof.Machine
end

section
/-! PROOFS. What the CFB does with a word, from the row of its OP (rules R56, R57): the command of a row that matches,
and E_INVALID where the row with the word's OP does not match. -/

namespace Sys2Proof

/-- A row is known by its OP alone. -/
theorem row_eq_of_op {r q : OpRow} (hr : r ∈ opcodeMap) (hq : q ∈ opcodeMap)
    (hop : CmdWord.op r.pattern = CmdWord.op q.pattern) : r = q := by
  have distinct_ops : (opcodeMap.map (fun r => CmdWord.op r.pattern)).Nodup := by decide
  exact List.inj_on_of_nodup_map distinct_ops hr hq hop

/-- A word can match no row but the one with its OP. -/
theorem no_match_of_op {r : OpRow} (hr : r ∈ opcodeMap) {w : CmdWord} (hop : CmdWord.op w = CmdWord.op r.pattern)
    (hw : w &&& r.mask ≠ r.pattern) : ∀ q ∈ opcodeMap, w &&& q.mask ≠ q.pattern := by
  intro q hq hwq
  obtain ⟨hop_q, -⟩ := (match_iff hq w).mp hwq
  obtain rfl := row_eq_of_op hr hq (hop.symm.trans hop_q)
  exact hw hwq

end Sys2Proof

namespace Sys2Proof.Machine

theorem execWord_of_match {r : OpRow} (hr : r ∈ opcodeMap) {w : CmdWord} (hw : w &&& r.mask = r.pattern) (s : State) :
    execWord w s = exec (r.command w) s := by
  have hd : decode w = .command (r.command w) := (decode_eq_command_iff w _).mpr ⟨r, hr, hw, rfl⟩
  simp [execWord, hd]

theorem execWord_of_op_no_match {r : OpRow} (hr : r ∈ opcodeMap) {w : CmdWord}
    (hop : CmdWord.op w = CmdWord.op r.pattern) (hw : w &&& r.mask ≠ r.pattern) (s : State) :
    execWord w s = .next (s.raise .eInvalid) :=
  execWord_of_no_match (no_match_of_op hr hop hw) s

end Sys2Proof.Machine
end

section
/-! PROOFS. The commands MERGE (rule R99) and NOP (rule R100): the merged value bit by bit, and the words with the OP of
either command. -/

namespace Sys2Proof.Machine

/-! ### The merged value -/

/-- The mask chooses between the operand and the old value, bit by bit. -/
theorem mergeValue_getLsbD (old mask val : Byte) {i : Nat} (hi : i < 8) :
    (mergeValue old mask val).getLsbD i = if mask.getLsbD i then val.getLsbD i else old.getLsbD i := by
  simp only [mergeValue, BitVec.getLsbD_or, BitVec.getLsbD_and, BitVec.getLsbD_not, hi]
  cases mask.getLsbD i with
  | false => simp
  | true => simp

theorem mergeValue_zero_mask (old val : Byte) : mergeValue old 0x00#8 val = old := by
  apply BitVec.eq_of_getLsbD_eq; intro i hi
  have hmask : ¬ (0x00#8).getLsbD i = true := by simp
  rw [mergeValue_getLsbD _ _ _ hi, if_neg hmask]

theorem mergeValue_full_mask (old val : Byte) : mergeValue old 0xFF#8 val = val := by
  apply BitVec.eq_of_getLsbD_eq; intro i hi
  have hmask : (0xFF#8).getLsbD i = true := (BitVec.getLsbD_allOnes (v := 8)).trans (decide_eq_true hi)
  rw [mergeValue_getLsbD _ _ _ hi, if_pos hmask]

/-- Merging again takes the same bits from the operand and keeps the others. -/
theorem mergeValue_idem (old mask val : Byte) :
    mergeValue (mergeValue old mask val) mask val = mergeValue old mask val := by
  apply BitVec.eq_of_getLsbD_eq; intro i hi
  simp only [mergeValue_getLsbD _ _ _ hi]
  split <;> rfl

/-! ### The commands -/

theorem exec_merge (mask mval : Byte) (s : State) :
    exec (.merge mask mval) s = .next { s with res := mergeValue s.res mask mval, status := .ok } := rfl

theorem exec_nop (s : State) : exec .nop s = .next { s with status := .ok } := rfl

/-! ### The words with OP 0x8 and OP 0x0 -/

theorem execWord_merge {w : CmdWord} (hw : w &&& 0xFFFF0000#32 = 0x80000000#32) (s : State) :
    execWord w s = exec (.merge (w.extractLsb' 8 8) (w.extractLsb' 0 8)) s :=
  execWord_of_match (r := opcodeMap[8]) (List.getElem_mem _) hw s

theorem execWord_nop (s : State) : execWord 0x00000000#32 s = exec .nop s :=
  execWord_of_match (r := opcodeMap[0]) (List.getElem_mem _) rfl s

/-- MERGE's mask covers bits 27 to 16 and its pattern has zeros there. -/
theorem extractLsb'_eq_zero_of_merge_match {w : CmdWord} (hw : w &&& 0xFFFF0000#32 = 0x80000000#32) :
    w.extractLsb' 16 12 = 0#12 := by
  calc w.extractLsb' 16 12 = w.extractLsb' 16 12 &&& (0xFFFF0000#32).extractLsb' 16 12 := BitVec.and_allOnes.symm
    _ = (w &&& 0xFFFF0000#32).extractLsb' 16 12 := BitVec.extractLsb'_and.symm
    _ = (0x80000000#32).extractLsb' 16 12 := congrArg _ hw

theorem execWord_illegal_merge {w : CmdWord} (hop : CmdWord.op w = 0x8#4) (hne : w.extractLsb' 16 12 ≠ 0#12)
    (s : State) : execWord w s = .next { s with status := .eInvalid } :=
  execWord_of_op_no_match (r := opcodeMap[8]) (List.getElem_mem _) hop
    (fun hw => hne (extractLsb'_eq_zero_of_merge_match hw)) s

/-- NOP's mask covers the whole word, so that its row matches the pattern only. -/
theorem execWord_illegal_nop {w : CmdWord} (hop : CmdWord.op w = 0x0#4) (hne : w.extractLsb' 0 28 ≠ 0#28)
    (s : State) : execWord w s = .next { s with status := .eInvalid } := by
  refine execWord_of_op_no_match (r := opcodeMap[0]) (List.getElem_mem _) hop (fun hw => hne ?_) s
  have word_zero : w = 0x00000000#32 := BitVec.and_allOnes.symm.trans hw
  rw [word_zero]
  rfl

/-- Settles O22: MERGE's result is `mergeValue`, and its words are those its row of the opcode map matches. -/
theorem mergeRule : Obligations.MergeRule := by
  refine ⟨fun s mask mval => ⟨mergeValue s.res mask mval, exec_merge mask mval s, ?bits, ?zero, ?full, ?again⟩,
    fun w s hop => ⟨fun hw => execWord_merge hw s, fun hne => execWord_illegal_merge hop hne s⟩, ?sample⟩
  case bits => exact fun i hi => mergeValue_getLsbD s.res mask mval hi
  case zero => rintro rfl; exact mergeValue_zero_mask s.res mval
  case full => rintro rfl; exact mergeValue_full_mask s.res mval
  case again => rw [exec_merge, mergeValue_idem]
  case sample =>
    intro s hres
    have value : mergeValue 0xA5#8 0x0F#8 0x03#8 = 0xA3#8 := rfl
    calc execWord 0x80000F03#32 s = exec (.merge 0x0F#8 0x03#8) s := execWord_merge rfl s
      _ = .next { s with res := 0xA3#8, status := .ok } := by rw [exec_merge, hres, value]

/-- Settles O23: NOP only completes, and its row of the opcode map matches one word. -/
theorem nopRule : Obligations.NopRule :=
  ⟨fun s => ⟨exec_nop s, execWord_nop s⟩, fun _ s hop hne => execWord_illegal_nop hop hne s,
    fun s _ => ⟨s.complete, execWord_nop s, State.complete_status s⟩⟩

end Sys2Proof.Machine
end

section
/-! PROOFS. The header byte (rule R90): its three fields, and that each frame builder leaves it in BUF[0]. -/

namespace Sys2Proof.Machine

/-! ### The fields of the header -/

theorem header_doc_eq_append (rw : Kind) (addr : RegAddr) (chip : ChipAddr) :
    header .doc rw addr chip = Kind.code rw ++ addr ++ chip := rfl

@[simp] theorem header_doc_rw (rw : Kind) (addr : RegAddr) (chip : ChipAddr) :
    (header .doc rw addr chip).extractLsb' 7 1 = Kind.code rw := by
  apply BitVec.eq_of_getLsbD_eq; intro i hi
  have above_chip : ¬ 7 + i < 2 := by omega
  have above_addr : ¬ 7 + i < 7 := by omega
  simp only [BitVec.getLsbD_extractLsb', header_doc_getLsbD, hi, above_chip, above_addr, decide_true, Bool.true_and,
    if_false, Nat.add_sub_cancel_left]

@[simp] theorem header_doc_addr (rw : Kind) (addr : RegAddr) (chip : ChipAddr) :
    (header .doc rw addr chip).extractLsb' 2 5 = addr := by
  apply BitVec.eq_of_getLsbD_eq; intro i hi
  have above_chip : ¬ 2 + i < 2 := by omega
  have below_rw : 2 + i < 7 := by omega
  simp only [BitVec.getLsbD_extractLsb', header_doc_getLsbD, hi, above_chip, below_rw, decide_true, Bool.true_and,
    if_true, if_false, Nat.add_sub_cancel_left]

@[simp] theorem header_doc_chip (rw : Kind) (addr : RegAddr) (chip : ChipAddr) :
    (header .doc rw addr chip).extractLsb' 0 2 = chip := by
  apply BitVec.eq_of_getLsbD_eq; intro i hi
  simp [header_doc_getLsbD, hi]

/-! ### The header in a built frame -/

@[simp] theorem State.byte_frameReady (s : State) (k : Kind) (i : Fin 3) : (s.frameReady k).byte i = s.byte i := rfl

/-- The CRC step writes no byte but the third. -/
theorem State.byte_appendCrc (p : Config.Params) (s : State) {i : Fin 3} (hi : i ≠ 2) :
    (s.appendCrc p).byte i = s.byte i := by
  cases h : s.crcEn with
  | false => rw [State.appendCrc_off p s h, State.byte_setLen]
  | true => rw [State.appendCrc_on p s h, State.byte_setLen, State.byte_memWrite, if_neg hi]

theorem State.buildWrite_byte_zero (p : Config.Params) (s : State) (addr : RegAddr) (val : Byte) :
    (s.buildWrite p addr val).byte 0 = header p.frameLayout .wr addr s.chipAddr := by
  simp [State.buildWrite, State.byte_appendCrc]

theorem State.buildRead_byte_zero (p : Config.Params) (s : State) (addr : RegAddr) :
    (s.buildRead p addr).byte 0 = header p.frameLayout .rd addr s.chipAddr := by
  simp [State.buildRead, State.byte_appendCrc]

/-- Settles O10: the layout of the spec is `DOC`, and each builder writes its header to BUF[0] and no byte over it. -/
theorem headerFields : Obligations.HeaderFields :=
  ⟨fun rw addr chip =>
    ⟨header_doc_eq_append rw addr chip, header_doc_rw rw addr chip, header_doc_addr rw addr chip,
      header_doc_chip rw addr chip⟩,
   fun s addr val =>
    ⟨⟨_, rfl, s.buildWrite_byte_zero Config.spec addr val⟩, ⟨_, rfl, s.buildWrite_byte_zero Config.spec addr s.res⟩,
      ⟨_, rfl, s.buildRead_byte_zero Config.spec addr⟩⟩⟩

end Sys2Proof.Machine
end

section
/-! PROOFS. PHASE and STATUS after a command (rule R122): the phase each command leaves, and that E_SEQUENCE is raised
only where the command is not legal. -/

namespace Sys2Proof.Machine

/-! ### The builders leave a frame that waits, and end OK -/

@[simp] theorem State.frameReady_phase (s : State) (k : Kind) : (s.frameReady k).phase = .txReady := rfl
@[simp] theorem State.frameReady_status (s : State) (k : Kind) : (s.frameReady k).status = .ok := rfl

@[simp] theorem State.buildWrite_phase (p : Config.Params) (s : State) (addr : RegAddr) (val : Byte) :
    (s.buildWrite p addr val).phase = .txReady := State.frameReady_phase ..
@[simp] theorem State.buildWrite_status (p : Config.Params) (s : State) (addr : RegAddr) (val : Byte) :
    (s.buildWrite p addr val).status = .ok := State.frameReady_status ..

@[simp] theorem State.buildRead_phase (p : Config.Params) (s : State) (addr : RegAddr) :
    (s.buildRead p addr).phase = .txReady := State.frameReady_phase ..
@[simp] theorem State.buildRead_status (p : Config.Params) (s : State) (addr : RegAddr) :
    (s.buildRead p addr).status = .ok := State.frameReady_status ..

/-! ### An answered exchange -/

/-- STATUS tells the return code, and only a read exchange that succeeds leaves a response to be checked. -/
theorem State.exchangeAnswered_status_phase (s : State) (tx : List Byte) (code : TCode) (rx : List Byte) :
    (s.exchangeAnswered tx code rx).status = (if code = 0#32 then .ok else .eTransport) ∧
    (s.exchangeAnswered tx code rx).phase = (if s.kind = .rd ∧ code = 0#32 then .rxDone else .idle) := by
  by_cases hc : code = 0#32
  · subst hc
    cases hk : s.kind with
    | rd => simp [State.exchangeAnswered_readOk s tx rx hk]
    | wr => simp [State.exchangeAnswered_writeOk s tx rx hk]
  · cases hk : s.kind with
    | rd => simp [State.exchangeAnswered_readFailed s tx code rx hk hc, hc]
    | wr => simp [State.exchangeAnswered_writeFailed s tx code rx hk hc, hc]

theorem State.exchangeAnswered_status_ne_eSequence (s : State) (tx : List Byte) (code : TCode) (rx : List Byte) :
    (s.exchangeAnswered tx code rx).status ≠ .eSequence := by
  obtain ⟨hstatus, -⟩ := s.exchangeAnswered_status_phase tx code rx
  rw [hstatus]
  split <;> simp

/-- All the next states XFER can have: it is refused, or the Transport answers the bytes that wait. -/
theorem execXfer_next_cases {s t : State} (h : execXfer s = .next t) :
    (s.phase ≠ .txReady ∧ t = s.raise .eSequence) ∨
    (s.phase = .txReady ∧ s.len ≠ .zero ∧
      ∃ code r0 r1 r2, s.transportAnswers s.pendingFrame = .answer code r0 r1 r2 ∧
        t = s.exchangeAnswered s.pendingFrame code ([r0, r1, r2].take (FrameLen.bytes s.len))) := by
  obtain ⟨hp, hx⟩ | ⟨-, -, hx⟩ | ⟨hp, hl, hx⟩ := execXfer_cases s
  · rw [hx] at h
    exact .inl ⟨hp, (Host.Outcome.next.inj h).symm⟩
  · rw [hx] at h
    exact nomatch h
  · rw [hx] at h
    obtain ⟨code, r0, r1, r2, hanswer, ht⟩ | ⟨-, ht⟩ := s.transact_cases (FrameLen.bytes s.len)
    · rw [ht] at h
      exact .inr ⟨hp, hl, code, r0, r1, r2, hanswer, (Host.Outcome.next.inj h).symm⟩
    · rw [ht] at h
      exact nomatch h

/-! ### The table of rule R122 -/

/-- What rule R122 says of a command's next state. -/
def FollowsPhaseTable (i : Instr) (s t : State) : Prop :=
  (t.status = .eSequence ↔ legalIn i s.phase = false) ∧
  t.phase = (if legalIn i s.phase then nextPhase i s.phase s.kind t.status else s.phase)

theorem followsPhaseTable_of_legal {i : Instr} {s t : State} (hlegal : legalIn i s.phase = true)
    (hstatus : t.status ≠ .eSequence) (hphase : t.phase = nextPhase i s.phase s.kind t.status) :
    FollowsPhaseTable i s t := by
  simp [FollowsPhaseTable, hlegal, hstatus, hphase]

theorem followsPhaseTable_of_illegal {i : Instr} {s : State} (hillegal : legalIn i s.phase = false) :
    FollowsPhaseTable i s (s.raise .eSequence) := by
  simp [FollowsPhaseTable, hillegal]

/-- A command that is legal in every phase and always ends OK. -/
theorem followsPhaseTable_of_ok {i : Instr} {s t u : State} (h : Host.Outcome.next u = (.next t : Result))
    (hlegal : legalIn i s.phase = true) (hstatus : u.status = .ok)
    (hphase : u.phase = nextPhase i s.phase s.kind .ok) : FollowsPhaseTable i s t := by
  obtain rfl := Host.Outcome.next.inj h
  exact followsPhaseTable_of_legal hlegal (by simp [hstatus]) (hstatus ▸ hphase)

/-- The table's row for an answered XFER is told by KIND and the return code. -/
theorem State.exchangeAnswered_nextPhase (s : State) (tx : List Byte) (code : TCode) (rx : List Byte) :
    (s.exchangeAnswered tx code rx).phase =
      nextPhase .xfer s.phase s.kind (s.exchangeAnswered tx code rx).status := by
  obtain ⟨hstatus, hphase⟩ := s.exchangeAnswered_status_phase tx code rx
  rw [hstatus, hphase]
  by_cases hc : code = 0#32
  · cases hk : s.kind with
    | rd => simp [hc, nextPhase]
    | wr => simp [hc, nextPhase]
  · simp [hc, nextPhase]

theorem execXfer_followsPhaseTable {s t : State} (h : execXfer s = .next t) : FollowsPhaseTable .xfer s t := by
  obtain ⟨hp, rfl⟩ | ⟨hp, -, code, r0, r1, r2, -, rfl⟩ := execXfer_next_cases h
  · exact followsPhaseTable_of_illegal (by simp [legalIn, hp])
  · exact followsPhaseTable_of_legal (by simp [legalIn, hp]) (s.exchangeAnswered_status_ne_eSequence _ _ _)
      (s.exchangeAnswered_nextPhase _ _ _)

theorem State.checkResponse_followsPhaseTable (p : Config.Params) (s : State) :
    FollowsPhaseTable .chkRd s (s.checkResponse p) := by
  obtain ⟨hp, hc⟩ | ⟨hp, -, hc⟩ | ⟨hp, -, hc⟩ := s.checkResponse_cases p
  · rw [hc]
    exact followsPhaseTable_of_illegal (by simp [legalIn, hp])
  · rw [hc]
    exact followsPhaseTable_of_legal (by simp [legalIn, hp]) (by simp) rfl
  · rw [hc]
    exact followsPhaseTable_of_legal (by simp [legalIn, hp]) (by simp) rfl

/-- Settles O36: XFER and CHK_RD by the cases of their own rules; the others are legal in every phase and end OK, the
builders in TX_READY and the rest in the phase before. -/
theorem phaseTransitions : Obligations.PhaseTransitions := by
  intro i s t h
  change FollowsPhaseTable i s t
  cases i with
  | xfer => exact execXfer_followsPhaseTable h
  | chkRd =>
    obtain rfl := Host.Outcome.next.inj h
    exact s.checkResponse_followsPhaseTable Config.spec
  | buildWr addr val =>
    exact followsPhaseTable_of_ok h rfl (s.buildWrite_status Config.spec addr val) (s.buildWrite_phase ..)
  | buildWrr addr =>
    exact followsPhaseTable_of_ok h rfl (s.buildWrite_status Config.spec addr s.res) (s.buildWrite_phase ..)
  | buildRd addr =>
    exact followsPhaseTable_of_ok h rfl (s.buildRead_status Config.spec addr) (s.buildRead_phase ..)
  | nop => exact followsPhaseTable_of_ok h rfl rfl rfl
  | cfg en chip => exact followsPhaseTable_of_ok h rfl rfl rfl
  | crcEnc b0 b1 => exact followsPhaseTable_of_ok h rfl rfl rfl
  | crcDec b0 b1 => exact followsPhaseTable_of_ok h rfl rfl rfl
  | merge mask mval => exact followsPhaseTable_of_ok h rfl rfl rfl

end Sys2Proof.Machine
end

section
/-! PROOFS. The reset state (rule R140). -/

namespace Sys2Proof.Machine

/-- The reset buffer lists no address, so each of its cells reads as an unlisted one does (rule R15, log entry 11). -/
@[simp] theorem State.byte_reset (i : Fin 3) : State.reset.byte i = 0x00#8 := Memory.read_nil i

/-- Settles O34: the bytes of BUF are read from the empty buffer; each other element is a field of `State.reset`. -/
theorem resetStateHasResetValues : Obligations.ResetStateHasResetValues :=
  ⟨rfl, rfl, State.byte_reset 0, State.byte_reset 1, State.byte_reset 2, rfl, rfl, rfl, rfl, rfl, rfl⟩

end Sys2Proof.Machine
end

section
/-! PROOFS. Decoding against encoding (rules R54 to R59), in both directions and on the spec's example words. -/

namespace Sys2Proof.Machine

/-- Settles O24: decoder and encoder are two sides of one relation, so a command's own word decodes to it. -/
theorem decodeOfEncode : Obligations.DecodeOfEncode :=
  fun i => (decode_eq_command_iff_encode (encode i) i).mpr rfl

/-- Settles O25: the other side of the same relation. -/
theorem encodeOfDecode : Obligations.EncodeOfDecode :=
  fun w i => (decode_eq_command_iff_encode w i).mp

/-- Settles O26: two rows that match a word both carry its OP, and the rows' OPs are pairwise different. -/
theorem opcodeRowsDisjoint : Obligations.OpcodeRowsDisjoint := by
  intro w j k r q hr hq hwr hwq
  have distinct_ops : (opcodeMap.map (fun r => CmdWord.op r.pattern)).Nodup := by decide
  obtain ⟨hj, -⟩ := List.getElem?_eq_some_iff.mp hr
  obtain rfl := row_eq_of_match (List.mem_of_getElem? hr) (List.mem_of_getElem? hq) hwr hwq
  exact (List.getElem?_inj hj distinct_ops.of_map).mp (hr.trans hq.symm)

/-- Settles O28: each example word is the word that the encoder writes for its command. -/
theorem exampleWordsDecode : Obligations.ExampleWordsDecode := by
  unfold Obligations.ExampleWordsDecode
  simp only [decode_eq_command_iff_encode]
  exact ⟨rfl, rfl, rfl, rfl, rfl, rfl, rfl, rfl, rfl, rfl⟩

end Sys2Proof.Machine
end

section
/-! PROOFS. The configuration command and the frame builders (rules R91 to R96): all that a builder writes, and the
frame that waits after it. -/

namespace Sys2Proof.Machine

/-! ### The frame that waits -/

theorem State.pendingFrame_two {s : State} (hl : s.len = .two) : s.pendingFrame = [s.byte 0, s.byte 1] := by
  simp [State.pendingFrame, hl, FrameLen.bytes, State.byte]

theorem State.pendingFrame_three {s : State} (hl : s.len = .three) :
    s.pendingFrame = [s.byte 0, s.byte 1, s.byte 2] := by
  simp [State.pendingFrame, hl, FrameLen.bytes, State.byte]

/-! ### What the builders write -/

/-- The CRC step changes BUF and LEN only. -/
theorem State.appendCrc_eq (p : Config.Params) (s : State) :
    s.appendCrc p = { s with buf := (s.appendCrc p).buf, len := if s.crcEn then .three else .two } := by
  by_cases h : s.crcEn = true
  · rw [State.appendCrc_on p s h, if_pos h]
    rfl
  · rw [State.appendCrc_off p s (eq_false_of_ne_true h), if_neg h]
    rfl

/-- A write builder changes BUF, LEN, PHASE, KIND and STATUS only. -/
theorem State.buildWrite_eq (p : Config.Params) (s : State) (addr : RegAddr) (val : Byte) :
    s.buildWrite p addr val =
      { s with buf := (s.buildWrite p addr val).buf, len := if s.crcEn then .three else .two, phase := .txReady,
               kind := .wr, status := .ok } := by
  rw [State.buildWrite, State.appendCrc_eq]
  rfl

/-- So does BUILD_RD. -/
theorem State.buildRead_eq (p : Config.Params) (s : State) (addr : RegAddr) :
    s.buildRead p addr =
      { s with buf := (s.buildRead p addr).buf, len := if s.crcEn then .three else .two, phase := .txReady,
               kind := .rd, status := .ok } := by
  rw [State.buildRead, State.appendCrc_eq]
  rfl

/-- The third cell after the CRC step. -/
theorem State.byte_two_appendCrc (p : Config.Params) (s : State) :
    (s.appendCrc p).byte 2 = if s.crcEn then frameCrc p (s.byte 0) (s.byte 1) else s.byte 2 := by
  cases h : s.crcEn with
  | false => rw [State.appendCrc_off p s h]; rfl
  | true => rw [State.appendCrc_on p s h]; simp

theorem State.buildWrite_byte_one (p : Config.Params) (s : State) (addr : RegAddr) (val : Byte) :
    (s.buildWrite p addr val).byte 1 = val := by
  simp [State.buildWrite, State.byte_appendCrc]

theorem State.buildWrite_byte_two (p : Config.Params) (s : State) (addr : RegAddr) (val : Byte) :
    (s.buildWrite p addr val).byte 2 =
      if s.crcEn then frameCrc p (header p.frameLayout .wr addr s.chipAddr) val else s.byte 2 := by
  simp [State.buildWrite, State.byte_two_appendCrc]

theorem State.buildRead_byte_one (p : Config.Params) (s : State) (addr : RegAddr) :
    (s.buildRead p addr).byte 1 = 0x00#8 := by
  simp [State.buildRead, State.byte_appendCrc]

theorem State.buildRead_byte_two (p : Config.Params) (s : State) (addr : RegAddr) :
    (s.buildRead p addr).byte 2 =
      if s.crcEn then frameCrc p (header p.frameLayout .rd addr s.chipAddr) 0x00#8 else 0x00#8 := by
  simp [State.buildRead, State.byte_two_appendCrc]

theorem State.buildWrite_len (p : Config.Params) (s : State) (addr : RegAddr) (val : Byte) :
    (s.buildWrite p addr val).len = if s.crcEn then .three else .two := by
  rw [State.buildWrite_eq]

theorem State.buildRead_len (p : Config.Params) (s : State) (addr : RegAddr) :
    (s.buildRead p addr).len = if s.crcEn then .three else .two := by
  rw [State.buildRead_eq]

/-! ### The bytes that wait are the wire image (rules R93, R95) -/

/-- A frame of LEN bytes waits whose third byte, if LEN is 3, is the CRC of the other two. -/
theorem State.pendingFrame_eq_frameImage {p : Config.Params} {t : State} {en : Bool}
    (hlen : t.len = if en then .three else .two) (hcrc : en = true → t.byte 2 = frameCrc p (t.byte 0) (t.byte 1)) :
    t.pendingFrame = frameImage p en (t.byte 0) (t.byte 1) := by
  cases en with
  | false => exact State.pendingFrame_two hlen
  | true =>
    rw [State.pendingFrame_three hlen, hcrc rfl]
    rfl

theorem State.buildWrite_pendingFrame (p : Config.Params) (s : State) (addr : RegAddr) (val : Byte) :
    (s.buildWrite p addr val).pendingFrame = writeImage p s.crcEn s.chipAddr addr val := by
  rw [State.pendingFrame_eq_frameImage (p := p) (s.buildWrite_len p addr val), State.buildWrite_byte_zero,
    State.buildWrite_byte_one]
  · rfl
  · intro hen
    rw [State.buildWrite_byte_zero, State.buildWrite_byte_one, State.buildWrite_byte_two, if_pos hen]

theorem State.buildRead_pendingFrame (p : Config.Params) (s : State) (addr : RegAddr) :
    (s.buildRead p addr).pendingFrame = readImage p s.crcEn s.chipAddr addr := by
  rw [State.pendingFrame_eq_frameImage (p := p) (s.buildRead_len p addr), State.buildRead_byte_zero,
    State.buildRead_byte_one]
  · rfl
  · intro hen
    rw [State.buildRead_byte_zero, State.buildRead_byte_one, State.buildRead_byte_two, if_pos hen]

theorem wireImage_write (s : State) (addr : RegAddr) (val : Byte) :
    wireImage s 1#1 addr val = writeImage Config.spec s.crcEn s.chipAddr addr val := rfl

theorem wireImage_read (s : State) (addr : RegAddr) :
    wireImage s 0#1 addr 0x00#8 = readImage Config.spec s.crcEn s.chipAddr addr := rfl

/-! ### The statements -/

/-- Settles O9: CFG is its record update, and the reset configuration is all zero. -/
theorem cfgSetsConfiguration : Obligations.CfgSetsConfiguration :=
  ⟨fun _ _ _ => rfl, fun _ => rfl⟩

theorem State.buildWrite_writeFrameBuilt (s : State) (addr : RegAddr) (val : Byte) :
    WriteFrameBuilt s (s.buildWrite Config.spec addr val) addr val := by
  refine ⟨s.buildWrite_byte_zero _ addr val, s.buildWrite_byte_one _ addr val, fun hen => ?on, fun hen => ?off, ?frame⟩
  case on =>
    rw [State.buildWrite_byte_two, State.buildWrite_len, if_pos hen, if_pos hen]
    exact ⟨rfl, rfl⟩
  case off =>
    rw [State.buildWrite_byte_two, State.buildWrite_len, hen]
    exact ⟨rfl, rfl⟩
  case frame =>
    rw [State.buildWrite_len]
    exact s.buildWrite_eq _ addr val

/-- Settles O11: both commands are the shared write builder, on the operand and on RES. -/
theorem writeBuildersLeaveFrame : Obligations.WriteBuildersLeaveFrame :=
  fun s addr val =>
    ⟨⟨_, rfl, s.buildWrite_writeFrameBuilt addr val⟩, ⟨_, rfl, s.buildWrite_writeFrameBuilt addr s.res⟩⟩

/-- Settles O12: cell by cell, then the elements the builder does not write. -/
theorem readBuilderLeavesRequest : Obligations.ReadBuilderLeavesRequest := by
  intro s addr
  refine ⟨_, rfl, s.buildRead_byte_zero _ addr, s.buildRead_byte_one _ addr, fun hen => ?on, fun hen => ?off, ?frame⟩
  case on =>
    rw [State.buildRead_byte_two, State.buildRead_len, if_pos hen, if_pos hen]
    exact ⟨rfl, rfl⟩
  case off =>
    rw [State.buildRead_byte_two, State.buildRead_len, hen]
    exact ⟨rfl, rfl⟩
  case frame =>
    rw [State.buildRead_len]
    exact s.buildRead_eq _ addr

/-- Settles O13: the frame that waits after a builder is the wire image, and its CRC byte is zero-extended. -/
theorem wireImageOfBuiltFrame : Obligations.WireImageOfBuiltFrame :=
  ⟨fun s addr val =>
    ⟨⟨_, rfl, (s.buildWrite_pendingFrame ..).trans (wireImage_write s addr val).symm⟩,
      ⟨_, rfl, (s.buildWrite_pendingFrame ..).trans (wireImage_write s addr s.res).symm⟩,
      ⟨_, rfl, (s.buildRead_pendingFrame ..).trans (wireImage_read s addr).symm⟩⟩,
   fun b0 b1 => crcByte_extractLsb'_high (crc5Enc Config.spec b0 b1)⟩

end Sys2Proof.Machine
end

section
/-! PROOFS. The exchange XFER (rule R97) and the response check CHK_RD (rule R98): what an answered exchange changes,
and the bytes it leaves in the buffer. -/

namespace Sys2Proof.Machine

/-! ### What an answered exchange changes -/

/-- An answered exchange changes TERR, the record and the Transport's moves in one way, whatever KIND and the code are,
and beside them BUF, STATUS, PHASE and the draw counter only. -/
theorem State.exchangeAnswered_eq (s : State) (tx : List Byte) (code : TCode) (rx : List Byte) :
    s.exchangeAnswered tx code rx =
      { s with buf := (s.exchangeAnswered tx code rx).buf, phase := (s.exchangeAnswered tx code rx).phase,
               terr := code, status := (s.exchangeAnswered tx code rx).status, answers := s.answers.tail,
               draws := (s.exchangeAnswered tx code rx).draws,
               wire := s.wire ++ [⟨tx, code, if code = 0#32 then rx else []⟩] } := by
  by_cases hc : code = 0#32
  · subst hc
    cases hk : s.kind with
    | rd => rw [State.exchangeAnswered_readOk s tx rx hk, ← hk]; rfl
    | wr => rw [State.exchangeAnswered_writeOk s tx rx hk, ← hk]; rfl
  · cases hk : s.kind with
    | rd => rw [State.exchangeAnswered_readFailed s tx code rx hk hc, ← hk]; rfl
    | wr => rw [State.exchangeAnswered_writeFailed s tx code rx hk hc, ← hk]; rfl

/-- The response to a write frame is not stored, whatever the code. -/
theorem State.exchangeAnswered_buf_of_write {s : State} (hk : s.kind = .wr) (tx : List Byte) (code : TCode)
    (rx : List Byte) : (s.exchangeAnswered tx code rx).buf = s.buf := by
  by_cases hc : code = 0#32
  · subst hc
    rw [State.exchangeAnswered_writeOk s tx rx hk]
    rfl
  · rw [State.exchangeAnswered_writeFailed s tx code rx hk hc]
    rfl

/-- The buffer takes at most one list of bytes: the response, or draws. -/
theorem State.exchangeAnswered_buf_cases (s : State) (tx : List Byte) (code : TCode) (rx : List Byte) :
    (s.exchangeAnswered tx code rx).buf = s.buf ∨
    ∃ bytes : List Byte, (bytes.length = rx.length ∨ bytes.length = tx.length) ∧
      (s.exchangeAnswered tx code rx).buf = Memory.writeFirst s.buf bytes := by
  cases hk : s.kind with
  | wr => exact .inl (State.exchangeAnswered_buf_of_write hk tx code rx)
  | rd =>
    right
    by_cases hc : code = 0#32
    · subst hc
      rw [State.exchangeAnswered_readOk s tx rx hk]
      exact ⟨rx, .inl rfl, rfl⟩
    · rw [State.exchangeAnswered_readFailed s tx code rx hk hc]
      exact ⟨_, .inr (by simp), rfl⟩

/-- Two bytes do not reach the third cell. -/
theorem Memory.read_two_writeFirst (m : Memory) {bytes : List Byte} (h : bytes.length = 2) :
    Memory.read (Memory.writeFirst m bytes) 2 = Memory.read m 2 := by
  obtain ⟨v0, v1, rfl⟩ := List.length_eq_two.mp h
  simp

/-- An exchange of two bytes leaves the third cell alone. -/
theorem State.exchangeAnswered_byte_two (s : State) {tx : List Byte} (code : TCode) {rx : List Byte}
    (htx : tx.length = 2) (hrx : rx.length = 2) : (s.exchangeAnswered tx code rx).byte 2 = s.byte 2 := by
  obtain hbuf | ⟨bytes, hlen, hbuf⟩ := s.exchangeAnswered_buf_cases tx code rx
  · exact congrArg (Memory.read · 2) hbuf
  · calc (s.exchangeAnswered tx code rx).byte 2
        = Memory.read (Memory.writeFirst s.buf bytes) 2 := congrArg (Memory.read · 2) hbuf
      _ = s.byte 2 := Memory.read_two_writeFirst s.buf (hlen.elim (·.trans hrx) (·.trans htx))

@[simp] theorem FrameLen.bytes_two : FrameLen.bytes .two = 2 := rfl
@[simp] theorem FrameLen.bytes_three : FrameLen.bytes .three = 3 := rfl

/-! ### XFER of a frame that waits -/

theorem State.pendingFrame_length (s : State) : s.pendingFrame.length = FrameLen.bytes s.len := by
  cases hl : s.len <;> simp [State.pendingFrame, hl, FrameLen.bytes, Memory.readFirst]

theorem FrameLen.ne_zero_of_two_or_three {n : FrameLen} (h : n = .two ∨ n = .three) : n ≠ .zero := by
  obtain rfl | rfl := h <;> simp

/-- The bytes an exchange receives, as the statements write them. -/
theorem take_bytes_eq_ite {n : FrameLen} (h : n = .two ∨ n = .three) (r0 r1 r2 : Byte) :
    [r0, r1, r2].take (FrameLen.bytes n) = if n = .three then [r0, r1, r2] else [r0, r1] := by
  obtain rfl | rfl := h <;> rfl

theorem execXfer_of_answer {s : State} {code : TCode} {r0 r1 r2 : Byte} (hp : s.phase = .txReady)
    (hl : s.len = .two ∨ s.len = .three) (h : s.transportAnswers s.pendingFrame = .answer code r0 r1 r2) :
    exec .xfer s =
      .next (s.exchangeAnswered s.pendingFrame code (if s.len = .three then [r0, r1, r2] else [r0, r1])) := by
  obtain ⟨hp', -⟩ | ⟨-, hl', -⟩ | ⟨-, -, hx⟩ := execXfer_cases s
  · exact absurd hp hp'
  · exact absurd hl' (FrameLen.ne_zero_of_two_or_three hl)
  · have htransact : s.transact (FrameLen.bytes s.len) =
        .next (s.exchangeAnswered s.pendingFrame code ([r0, r1, r2].take (FrameLen.bytes s.len))) := by
      unfold State.transportAnswers State.pendingFrame at h
      simp [State.transact, h, State.pendingFrame]
    rw [← take_bytes_eq_ite hl]
    exact hx.trans htransact

/-- Settles O19: XFER makes its one exchange, and the Transport does not end it. -/
theorem silentTransportStopsXfer : Obligations.SilentTransportStopsXfer := by
  intro s hp hl h
  obtain ⟨hp', -⟩ | ⟨-, hl', -⟩ | ⟨-, -, hx⟩ := execXfer_cases s
  · exact absurd hp hp'
  · exact absurd hl' (FrameLen.ne_zero_of_two_or_three hl)
  · obtain ⟨code, r0, r1, r2, hanswer, -⟩ | ⟨-, hnever⟩ := s.transact_cases (FrameLen.bytes s.len)
    · exact nomatch h.symm.trans hanswer
    · exact hx.trans hnever

/-- Settles O18: the guards of the two commands. -/
theorem outOfSequenceChangesOnlyStatus : Obligations.OutOfSequenceChangesOnlyStatus := by
  intro s
  constructor
  · intro hp
    obtain ⟨-, hx⟩ | ⟨hp', -⟩ | ⟨hp', -⟩ := execXfer_cases s
    · exact hx
    · exact absurd hp' hp
    · exact absurd hp' hp
  · intro hp
    obtain ⟨-, hc⟩ | ⟨hp', -⟩ | ⟨hp', -⟩ := s.checkResponse_cases Config.spec
    · exact congrArg Host.Outcome.next hc
    · exact absurd hp' hp
    · exact absurd hp' hp

/-- Settles O16: the answered exchange of a write frame with code 0. -/
theorem xferWriteDiscardsResponse : Obligations.XferWriteDiscardsResponse := by
  intro s r0 r1 r2 hp hk hl h
  rw [execXfer_of_answer hp hl h, State.exchangeAnswered_writeOk _ _ _ hk]
  rfl

/-- Settles O15: the response is stored cell by cell, two or three of them. -/
theorem xferReadTakesResponse : Obligations.XferReadTakesResponse := by
  intro s r0 r1 r2 hp hk hl h
  rw [execXfer_of_answer hp hl h, State.exchangeAnswered_readOk _ _ _ hk]
  refine ⟨_, rfl, ?_, ?_, ?_, rfl⟩
  all_goals
    obtain hl | hl := hl
    · simp [hl, State.byte]
    · simp [hl, State.byte]

/-- Settles O17: a write frame leaves the buffer alone; after a read frame the first LEN cells are consecutive draws. -/
theorem xferReportsTransportError : Obligations.XferReportsTransportError := by
  intro s code r0 r1 r2 hp hl h hc
  have two_bytes : s.len = .two →
      (s.exchangeAnswered s.pendingFrame code (if s.len = .three then [r0, r1, r2] else [r0, r1])).byte 2 = s.byte 2 :=
    fun hl => s.exchangeAnswered_byte_two code (by rw [s.pendingFrame_length, hl]; rfl) (by rw [hl]; rfl)
  refine ⟨_, execXfer_of_answer hp hl h, fun hk => State.exchangeAnswered_buf_of_write hk _ _ _, two_bytes, ?_⟩
  cases hk : s.kind with
  | wr =>
    rw [State.exchangeAnswered_writeFailed _ _ _ _ hk hc]
    refine ⟨(nomatch ·), ?_, rfl⟩
    rw [State.recordExchange, if_neg hc, ← hk]
    rfl
  | rd =>
    rw [State.exchangeAnswered_readFailed _ _ _ _ hk hc, s.pendingFrame_length]
    refine ⟨fun _ => ⟨?_, ?_, fun hthree => ?_⟩, ?_, rfl⟩
    · obtain hl | hl := hl <;> simp [hl, State.byte, List.range_succ]
    · obtain hl | hl := hl <;> simp [hl, State.byte, List.range_succ]
    · simp [hthree, State.byte, List.range_succ]
    · rw [State.recordExchange, if_neg hc, ← hk]
      rfl

/-! ### CHK_RD in RX_DONE -/

/-- A response is refused when it has a CRC byte, and the byte is not the CRC. -/
theorem State.responseOk_spec_iff (s : State) :
    s.responseOk Config.spec = true ↔
      (s.len = .three → crc5Dec Config.spec (s.byte 0) (s.byte 1) = (s.byte 2).extractLsb' 0 5) := by
  cases hl : s.len with
  | zero => simp [State.responseOk, hl]
  | two => simp [State.responseOk, hl]
  | three =>
    rw [State.responseOk, hl]
    exact (rxCrcMatches_ignore_iff _ _).trans ⟨fun h _ => h.symm, fun h => (h rfl).symm⟩

theorem exec_chkRd_of_ok {s : State} (hp : s.phase = .rxDone) (h : s.responseOk Config.spec = true) :
    exec .chkRd s = .next { s with phase := .idle, res := s.byte 1, status := .ok } := by
  obtain ⟨hp', -⟩ | ⟨-, -, hc⟩ | ⟨-, h', -⟩ := s.checkResponse_cases Config.spec
  · exact absurd hp hp'
  · exact congrArg Host.Outcome.next hc
  · exact absurd (h.symm.trans h') (by decide)

theorem exec_chkRd_of_mismatch {s : State} (hp : s.phase = .rxDone) (h : ¬ s.responseOk Config.spec = true) :
    exec .chkRd s = .next { s with phase := .idle, status := .eIntegrity } := by
  obtain ⟨hp', -⟩ | ⟨-, h', -⟩ | ⟨-, -, hc⟩ := s.checkResponse_cases Config.spec
  · exact absurd hp hp'
  · exact absurd h' h
  · exact congrArg Host.Outcome.next hc

/-- After any CHK_RD the phase is not RX_DONE. -/
theorem State.checkResponse_phase_ne (p : Config.Params) (s : State) : (s.checkResponse p).phase ≠ .rxDone := by
  obtain ⟨hp, hc⟩ | ⟨-, -, hc⟩ | ⟨-, -, hc⟩ := s.checkResponse_cases p
  · rw [hc]
    exact hp
  · simp [hc]
  · simp [hc]

/-- Settles O20: the response is delivered or refused by its CRC, and a second CHK_RD finds the phase IDLE. -/
theorem chkRdDeliversOrRejects : Obligations.ChkRdDeliversOrRejects := by
  intro s hp
  refine ⟨fun hok => ?_, fun hl hne => ?_, fun t ht => ?_⟩
  · exact exec_chkRd_of_ok hp (s.responseOk_spec_iff.mpr hok)
  · exact exec_chkRd_of_mismatch hp (fun hok => hne (s.responseOk_spec_iff.mp hok hl))
  · obtain rfl := Host.Outcome.next.inj ht
    exact (outOfSequenceChangesOnlyStatus _).2 (s.checkResponse_phase_ne Config.spec)

end Sys2Proof.Machine
end

section
/-! PROOFS. What holds of every command and of every step: which elements change (rules R12, R121), what is never read
(rule R25), and the one exchange of an XFER (rule R37). -/

namespace Sys2Proof.Machine

/-! ### The ports -/

theorem execWord_encode (i : Instr) (s : State) : execWord (encode i) s = exec i s := by
  simp [execWord, decodeOfEncode i]

theorem step_of_command {s : State} {w : CmdWord} (h : s.input = some (.command w)) :
    step s = execWord w s.advance := by
  simp [step, h]

/-- Settles O31: a step is its word's meaning on the advanced state. -/
theorem stepRunsDecodedCommand : Obligations.StepRunsDecodedCommand := by
  intro s w hw
  constructor
  · intro i hd
    simp [step_of_command hw, execWord, hd, State.advance]
  · intro why hd
    simp [step_of_command hw, execWord, hd, State.advance, State.raise]

theorem State.withFetchWord_input (s : State) (w : CmdWord) :
    (s.withFetchWord 32 w.toNat).input = some (.command w) := by
  simp [State.withFetchWord, State.input, Nat.mod_eq_of_lt w.isLt]

/-- Settles O32: the placed word is the next input, and it decodes to its command. -/
theorem placedCommandRunsNext : Obligations.PlacedCommandRunsNext := by
  intro s i
  rw [step_of_command (s.withFetchWord_input (encode i)), execWord_encode]
  rfl

/-- Settles O35: reset writes each of the nine elements, and the index has moved on. -/
theorem resetSetsEveryElement : Obligations.ResetSetsEveryElement := by
  intro s hs
  simp only [step, hs]
  rfl

/-! ### STATUS, the inputs and the index are never read -/

/-- The state with other inputs, at another index. -/
def State.atPorts (s : State) (l : List PortInput) (n : Nat) : State := { s with inputs := l, index := n }

/-- The builders' CRC step passes STATUS and the ports through. -/
theorem State.appendCrc_atPorts (p : Config.Params) (s : State) (st : Status) (l : List PortInput) (n : Nat) :
    ((s.raise st).atPorts l n).appendCrc p = ((s.appendCrc p).raise st).atPorts l n := by
  by_cases h : s.crcEn = true
  · rw [State.appendCrc_on p s h, State.appendCrc_on p ((s.raise st).atPorts l n) h]
    rfl
  · rw [State.appendCrc_off p s (eq_false_of_ne_true h),
      State.appendCrc_off p ((s.raise st).atPorts l n) (eq_false_of_ne_true h)]
    rfl

/-- A builder passes the ports through, and ends OK whatever STATUS was. -/
theorem State.buildWrite_atPorts (p : Config.Params) (s : State) (addr : RegAddr) (val : Byte) (st : Status)
    (l : List PortInput) (n : Nat) :
    ((s.raise st).atPorts l n).buildWrite p addr val = (s.buildWrite p addr val).atPorts l n :=
  congrArg (State.frameReady · .wr)
    (((s.memWrite 0 (header p.frameLayout .wr addr s.chipAddr)).memWrite 1 val).appendCrc_atPorts p st l n)

theorem State.buildRead_atPorts (p : Config.Params) (s : State) (addr : RegAddr) (st : Status) (l : List PortInput)
    (n : Nat) : ((s.raise st).atPorts l n).buildRead p addr = (s.buildRead p addr).atPorts l n :=
  congrArg (State.frameReady · .rd)
    (((((s.memWrite 0 0x00#8).memWrite 1 0x00#8).memWrite 2 0x00#8).memWrite 0
      (header p.frameLayout .rd addr s.chipAddr)).appendCrc_atPorts p st l n)

theorem State.buildWrite_status_irrelevant (p : Config.Params) (s : State) (addr : RegAddr) (val : Byte)
    (st : Status) : State.buildWrite p { s with status := st } addr val = s.buildWrite p addr val := by
  calc State.buildWrite p { s with status := st } addr val
      = (s.buildWrite p addr val).atPorts s.inputs s.index := s.buildWrite_atPorts p addr val st _ _
    _ = s.buildWrite p addr val := by rw [State.buildWrite_eq, State.atPorts]

theorem State.buildRead_status_irrelevant (p : Config.Params) (s : State) (addr : RegAddr) (st : Status) :
    State.buildRead p { s with status := st } addr = s.buildRead p addr := by
  calc State.buildRead p { s with status := st } addr
      = (s.buildRead p addr).atPorts s.inputs s.index := s.buildRead_atPorts p addr st _ _
    _ = s.buildRead p addr := by rw [State.buildRead_eq, State.atPorts]

theorem exec_status_irrelevant (i : Instr) (s : State) (st : Status) : exec i { s with status := st } = exec i s := by
  cases i with
  | nop => rfl
  | cfg en chip => rfl
  | crcEnc b0 b1 => rfl
  | crcDec b0 b1 => rfl
  | buildWr addr val => exact congrArg Host.Outcome.next (s.buildWrite_status_irrelevant Config.spec addr val st)
  | buildRd addr => exact congrArg Host.Outcome.next (s.buildRead_status_irrelevant Config.spec addr st)
  | xfer => rfl
  | chkRd => rfl
  | merge mask mval => rfl
  | buildWrr addr => exact congrArg Host.Outcome.next (s.buildWrite_status_irrelevant Config.spec addr s.res st)

/-- Settles O38: no command reads STATUS, and an illegal word and a reset overwrite it. -/
theorem statusIsNeverRead : Obligations.StatusIsNeverRead := by
  intro s st
  obtain ⟨w, hin, hstep⟩ | ⟨hin, hstep⟩ | ⟨hin, hstep⟩ := step_cases s
  · rw [hstep, step_of_command (s := { s with status := st }) hin]
    obtain ⟨i, hd, hw⟩ | ⟨why, hd, hw⟩ := execWord_cases w s.advance
    · rw [hw, execWord, hd]
      exact exec_status_irrelevant i s.advance st
    · rw [hw, execWord, hd]
      rfl
  · rw [hstep, resetSetsEveryElement { s with status := st } hin]
    rfl
  · rw [hstep]
    simp only [step]
    rw [show State.input { s with status := st } = none from hin]

/-! ### Which elements a command changes -/

/-- A command other than XFER and CHK_RD completes. -/
theorem exec_completes_or (i : Instr) (s : State) :
    i = .xfer ∨ i = .chkRd ∨ ∃ t, exec i s = .next t ∧ t.status = .ok := by
  cases i with
  | xfer => exact .inl rfl
  | chkRd => exact .inr (.inl rfl)
  | nop => exact .inr (.inr ⟨_, rfl, rfl⟩)
  | cfg en chip => exact .inr (.inr ⟨_, rfl, rfl⟩)
  | crcEnc b0 b1 => exact .inr (.inr ⟨_, rfl, rfl⟩)
  | crcDec b0 b1 => exact .inr (.inr ⟨_, rfl, rfl⟩)
  | buildWr addr val => exact .inr (.inr ⟨_, rfl, s.buildWrite_status _ addr val⟩)
  | buildRd addr => exact .inr (.inr ⟨_, rfl, s.buildRead_status _ addr⟩)
  | merge mask mval => exact .inr (.inr ⟨_, rfl, rfl⟩)
  | buildWrr addr => exact .inr (.inr ⟨_, rfl, s.buildWrite_status _ addr s.res⟩)

/-- CHK_RD changes RES, STATUS and PHASE only. -/
theorem State.checkResponse_eq (p : Config.Params) (s : State) :
    s.checkResponse p =
      { s with res := (s.checkResponse p).res, status := (s.checkResponse p).status,
               phase := (s.checkResponse p).phase } := by
  obtain ⟨-, hc⟩ | ⟨-, -, hc⟩ | ⟨-, -, hc⟩ := s.checkResponse_cases p
  · rw [hc]; rfl
  · rw [hc]; rfl
  · rw [hc]; rfl

/-- Settles O39: the record update that each command is, and for XFER and CHK_RD the one that covers their cases. -/
theorem onlyTheirWritersChangeElements : Obligations.OnlyTheirWritersChangeElements := by
  intro i s t h
  cases i with
  | xfer =>
    obtain ⟨-, rfl⟩ | ⟨-, -, code, r0, r1, r2, -, rfl⟩ := execXfer_next_cases h
    · simp
    · rw [State.exchangeAnswered_eq]
      simp
  | chkRd =>
    obtain rfl := Host.Outcome.next.inj h
    rw [State.checkResponse_eq]
    simp
  | buildWr addr val =>
    obtain rfl := Host.Outcome.next.inj h
    rw [State.buildWrite_eq]
    simp
  | buildWrr addr =>
    obtain rfl := Host.Outcome.next.inj h
    rw [State.buildWrite_eq]
    simp
  | buildRd addr =>
    obtain rfl := Host.Outcome.next.inj h
    rw [State.buildRead_eq]
    simp
  | nop => obtain rfl := Host.Outcome.next.inj h; simp
  | cfg en chip => obtain rfl := Host.Outcome.next.inj h; simp
  | crcEnc b0 b1 => obtain rfl := Host.Outcome.next.inj h; simp [State.deliverCrc]
  | crcDec b0 b1 => obtain rfl := Host.Outcome.next.inj h; simp [State.deliverCrc]
  | merge mask mval => obtain rfl := Host.Outcome.next.inj h; simp

theorem exec_keeps_ports {i : Instr} {s t : State} (h : exec i s = .next t) :
    t.inputs = s.inputs ∧ t.index = s.index := by
  obtain ⟨-, -, -, -, -, hports⟩ := onlyTheirWritersChangeElements i s t h
  exact hports

theorem exec_keeps_wire {i : Instr} {s t : State} (h : exec i s = .next t) (hi : i ≠ .xfer) : t.wire = s.wire := by
  obtain ⟨-, -, -, -, hexchange, -⟩ := onlyTheirWritersChangeElements i s t h
  obtain ⟨-, hwire, -⟩ := hexchange hi
  exact hwire

/-- All the next states a step can have. -/
theorem step_next_cases {s t : State} (h : step s = .next t) :
    (∃ w i, s.input = some (.command w) ∧ encode i = w ∧ exec i s.advance = .next t) ∨
    (∃ w why, s.input = some (.command w) ∧ decode w = .illegal why ∧ t = s.advance.raise .eInvalid) ∨
    (s.input = some .reset ∧ t = s.advance.applyReset) := by
  obtain ⟨w, hin, hstep⟩ | ⟨hin, hstep⟩ | ⟨-, hstep⟩ := step_cases s
  · rw [hstep] at h
    obtain ⟨i, hd, hw⟩ | ⟨why, hd, hw⟩ := execWord_cases w s.advance
    · exact .inl ⟨w, i, hin, encodeOfDecode w i hd, hw.symm.trans h⟩
    · exact .inr (.inl ⟨w, why, hin, hd, (Host.Outcome.next.inj (hw.symm.trans h)).symm⟩)
  · exact .inr (.inr ⟨hin, (Host.Outcome.next.inj (hstep.symm.trans h)).symm⟩)
  · exact nomatch hstep.symm.trans h

/-- Settles O33: the index moves on before the command, which changes neither it nor the inputs. -/
theorem stepMovesIndexByOne : Obligations.StepMovesIndexByOne := by
  intro s t h
  obtain ⟨w, i, -, -, hexec⟩ | ⟨w, why, -, -, rfl⟩ | ⟨-, rfl⟩ := step_next_cases h
  · obtain ⟨hinputs, hindex⟩ := exec_keeps_ports hexec
    exact ⟨hindex, hinputs⟩
  · exact ⟨rfl, rfl⟩
  · exact ⟨rfl, rfl⟩

/-! ### One exchange per XFER -/

theorem encode_eq_xfer_iff (i : Instr) : encode i = 0x60000000#32 ↔ i = .xfer := by
  rw [← decode_eq_command_iff_encode]
  have hd : decode 0x60000000#32 = .command .xfer := decodeOfEncode .xfer
  rw [hd]
  exact ⟨fun h => (Decoded.command.inj h).symm, fun h => h ▸ rfl⟩

/-- Settles O40: XFER in TX_READY records the one exchange, and no other command or input touches the record. -/
theorem oneExchangePerXfer : Obligations.OneExchangePerXfer := by
  intro s t h
  obtain ⟨w, i, hin, hw, hexec⟩ | ⟨w, why, hin, hd, rfl⟩ | ⟨hin, rfl⟩ := step_next_cases h
  · rw [hin, ← hw, Option.some_inj, PortInput.command.injEq, encode_eq_xfer_iff]
    by_cases hi : i = .xfer
    · subst hi
      obtain ⟨hp, rfl⟩ | ⟨hp, -, code, r0, r1, r2, -, rfl⟩ := execXfer_next_cases hexec
      · exact ⟨fun ⟨hp', _⟩ => absurd hp' hp, fun _ => rfl⟩
      · rw [State.exchangeAnswered_eq]
        exact ⟨fun _ => ⟨_, rfl⟩, fun hnot => absurd ⟨hp, rfl⟩ hnot⟩
    · exact ⟨fun ⟨_, hi'⟩ => absurd hi' hi, fun _ => by simpa using exec_keeps_wire hexec hi⟩
  · refine ⟨fun ⟨_, hxfer⟩ => ?_, fun _ => rfl⟩
    obtain rfl : w = 0x60000000#32 := by simpa [hin] using hxfer
    exact nomatch hd.symm.trans (decodeOfEncode .xfer)
  · exact ⟨fun ⟨_, hxfer⟩ => absurd (hin.symm.trans hxfer) (by simp), fun _ => rfl⟩

/-! ### Errors are precise -/

/-- What rule R121 says of the next state. -/
def IsPrecise (s t : State) : Prop :=
  (t.status = .eInvalid ∨ t.status = .eSequence → t = { s with status := t.status }) ∧
  (t.status = .eIntegrity → t = { s with phase := .idle, status := .eIntegrity }) ∧
  (t.status = .eTransport →
    t = { s with buf := t.buf, terr := t.terr, phase := .idle, status := .eTransport,
                 answers := s.answers.tail, draws := t.draws, wire := s.wire ++ [⟨s.pendingFrame, t.terr, []⟩] } ∧
    t.terr ≠ 0#32 ∧ (s.kind = .wr → t.buf = s.buf) ∧ (s.len = .two → t.byte 2 = s.byte 2))

theorem isPrecise_of_ok {s t : State} (h : t.status = .ok) : IsPrecise s t := by
  simp [IsPrecise, h]

theorem isPrecise_raise {s : State} {e : Status} (h : e = .eInvalid ∨ e = .eSequence) : IsPrecise s (s.raise e) := by
  obtain rfl | rfl := h
  · exact ⟨fun _ => rfl, (nomatch ·), (nomatch ·)⟩
  · exact ⟨fun _ => rfl, (nomatch ·), (nomatch ·)⟩

theorem State.checkResponse_isPrecise (s : State) : IsPrecise s (s.checkResponse Config.spec) := by
  obtain ⟨-, hc⟩ | ⟨-, -, hc⟩ | ⟨-, -, hc⟩ := s.checkResponse_cases Config.spec
  · exact hc ▸ isPrecise_raise (.inr rfl)
  · exact hc ▸ isPrecise_of_ok rfl
  · exact hc ▸ ⟨by simp, fun _ => rfl, by simp⟩

theorem execXfer_isPrecise {s t : State} (h : execXfer s = .next t) : IsPrecise s t := by
  obtain ⟨-, rfl⟩ | ⟨-, -, code, r0, r1, r2, -, rfl⟩ := execXfer_next_cases h
  · exact isPrecise_raise (.inr rfl)
  · obtain ⟨hstatus, hphase⟩ :=
      s.exchangeAnswered_status_phase s.pendingFrame code ([r0, r1, r2].take (FrameLen.bytes s.len))
    by_cases hc : code = 0#32
    · exact isPrecise_of_ok (hstatus.trans (if_pos hc))
    · rw [if_neg hc] at hstatus
      rw [if_neg (fun h => hc h.2)] at hphase
      refine ⟨by simp [hstatus], by simp [hstatus], fun _ => ⟨?record, ?code, ?write, ?short⟩⟩
      case record =>
        rw [State.exchangeAnswered_eq]
        simp [hstatus, hphase, hc]
      case code =>
        rw [State.exchangeAnswered_eq]
        exact hc
      case write => exact fun hk => State.exchangeAnswered_buf_of_write hk _ _ _
      case short =>
        exact fun hl => s.exchangeAnswered_byte_two code (by simp [s.pendingFrame_length, hl]) (by simp [hl])

/-- Settles O37: only XFER, CHK_RD and illegal words raise an error. -/
theorem errorsArePrecise : Obligations.ErrorsArePrecise := by
  intro w s t h
  change IsPrecise s t
  obtain ⟨i, -, hw⟩ | ⟨why, -, hw⟩ := execWord_cases w s
  · rw [hw] at h
    obtain rfl | rfl | ⟨u, hu, hok⟩ := exec_completes_or i s
    · exact execXfer_isPrecise h
    · exact Host.Outcome.next.inj h ▸ s.checkResponse_isPrecise
    · obtain rfl := Host.Outcome.next.inj (hu.symm.trans h)
      exact isPrecise_of_ok hok
  · exact Host.Outcome.next.inj (hw.symm.trans h) ▸ isPrecise_raise (.inl rfl)

end Sys2Proof.Machine
end

section
/-! PROOFS. CFG after a build (rule R144): XFER and CHK_RD read neither the configuration nor STATUS nor the Host's
ports, so that they do the same with others in their place. -/

namespace Sys2Proof.Machine

/-- A result with its next state, if it is one, replaced by a function of it. -/
def mapNext (f : State → State) : Result → Result
  | .next t => .next (f t)
  | .fault r => .fault r
  | .refused r => .refused r

@[simp] theorem mapNext_next (f : State → State) (t : State) : mapNext f (.next t) = .next (f t) := rfl
@[simp] theorem mapNext_fault (f : State → State) (r : Fault) : mapNext f (.fault r) = .fault r := rfl

theorem eq_mapNext_of_next {f : State → State} {r r' : Result} {t : State} (h : r = .next t)
    (h' : r' = .next (f t)) : r' = mapNext f r := by
  rw [h', h, mapNext_next]

/-- The state with another configuration, and other inputs at another index. -/
def State.withContext (en : Bool) (chip : ChipAddr) (l : List PortInput) (n : Nat) (s : State) : State :=
  (s.setConfig en chip).atPorts l n

section
variable (en : Bool) (chip : ChipAddr) (l : List PortInput) (n : Nat)

theorem State.exchangeAnswered_withContext (s : State) (tx : List Byte) (code : TCode) (rx : List Byte) :
    (s.withContext en chip l n).exchangeAnswered tx code rx =
      (s.exchangeAnswered tx code rx).withContext en chip l n := by
  by_cases hc : code = 0#32
  · subst hc
    cases hk : s.kind with
    | rd =>
      rw [State.exchangeAnswered_readOk s tx rx hk, State.exchangeAnswered_readOk (s.withContext en chip l n) tx rx hk]
      rfl
    | wr =>
      rw [State.exchangeAnswered_writeOk s tx rx hk,
        State.exchangeAnswered_writeOk (s.withContext en chip l n) tx rx hk]
      rfl
  · cases hk : s.kind with
    | rd =>
      rw [State.exchangeAnswered_readFailed s tx code rx hk hc,
        State.exchangeAnswered_readFailed (s.withContext en chip l n) tx code rx hk hc]
      rfl
    | wr =>
      rw [State.exchangeAnswered_writeFailed s tx code rx hk hc,
        State.exchangeAnswered_writeFailed (s.withContext en chip l n) tx code rx hk hc]
      rfl

theorem State.transact_withContext (s : State) (k : Nat) :
    (s.withContext en chip l n).transact k = mapNext (State.withContext en chip l n) (s.transact k) := by
  obtain ⟨code, r0, r1, r2, hanswer, ht⟩ | ⟨hnever, ht⟩ := s.transact_cases k
  · have htransact : (s.withContext en chip l n).transact k =
        .next ((s.withContext en chip l n).exchangeAnswered (Memory.readFirst s.buf k) code ([r0, r1, r2].take k)) := by
      simp [State.transact, State.withContext, State.atPorts, State.setConfig, hanswer]
    rw [htransact, ht, State.exchangeAnswered_withContext, mapNext_next]
  · rw [ht]
    simp [State.transact, State.withContext, State.atPorts, State.setConfig, hnever]

theorem execXfer_withContext (s : State) :
    execXfer (s.withContext en chip l n) = mapNext (State.withContext en chip l n) (execXfer s) := by
  by_cases hp : s.phase = .txReady
  · cases hl : s.len with
    | zero => simp [execXfer, State.withContext, State.atPorts, State.setConfig, hp, hl]
    | two => simpa [execXfer, State.withContext, State.atPorts, State.setConfig, hp, hl] using s.transact_withContext en chip l n 2
    | three => simpa [execXfer, State.withContext, State.atPorts, State.setConfig, hp, hl] using s.transact_withContext en chip l n 3
  · simp [execXfer, State.withContext, State.atPorts, State.setConfig, hp, State.raise]

theorem execChkRd_withContext (s : State) :
    execChkRd (s.withContext en chip l n) = mapNext (State.withContext en chip l n) (execChkRd s) := by
  by_cases hp : s.phase = .rxDone
  · by_cases hok : s.responseOk Config.spec = true
    · exact eq_mapNext_of_next (exec_chkRd_of_ok hp hok)
        (exec_chkRd_of_ok (s := s.withContext en chip l n) hp hok)
    · exact eq_mapNext_of_next (exec_chkRd_of_mismatch hp hok)
        (exec_chkRd_of_mismatch (s := s.withContext en chip l n) hp hok)
  · exact eq_mapNext_of_next ((outOfSequenceChangesOnlyStatus s).2 hp)
      ((outOfSequenceChangesOnlyStatus (s.withContext en chip l n)).2 hp)

end

theorem execXfer_after_cfg (s : State) (en : Bool) (chip : ChipAddr) :
    exec .xfer { s with crcEn := en, chipAddr := chip, status := .ok } =
      mapNext (State.withContext en chip s.inputs s.index) (exec .xfer s) := by
  rw [exec_status_irrelevant .xfer { s with crcEn := en, chipAddr := chip } .ok]
  exact execXfer_withContext en chip s.inputs s.index s

theorem execChkRd_after_cfg (s : State) (en : Bool) (chip : ChipAddr) :
    exec .chkRd { s with crcEn := en, chipAddr := chip, status := .ok } =
      mapNext (State.withContext en chip s.inputs s.index) (exec .chkRd s) := by
  rw [exec_status_irrelevant .chkRd { s with crcEn := en, chipAddr := chip } .ok]
  exact execChkRd_withContext en chip s.inputs s.index s

/-- A command passes the inputs and the index through, so giving a next state those it came from changes nothing. -/
theorem withContext_own_ports {i : Instr} {s t : State} (h : exec i s = .next t) (en : Bool) (chip : ChipAddr) :
    t.withContext en chip s.inputs s.index = { t with crcEn := en, chipAddr := chip } := by
  obtain ⟨hinputs, hindex⟩ := exec_keeps_ports h
  rw [State.withContext, State.atPorts, ← hinputs, ← hindex]
  rfl

theorem len_eq_three_iff {n : FrameLen} {en : Bool} (h : n = if en then .three else .two) :
    n = .three ↔ en = true := by
  cases en <;> simp [h]

/-- Settles O14: the frame is in the buffer, which CFG does not write, and only the builders read the configuration. -/
theorem cfgDoesNotChangeBuiltFrame : Obligations.CfgDoesNotChangeBuiltFrame := by
  intro s en chip
  refine ⟨{ s with crcEn := en, chipAddr := chip, status := .ok }, rfl, rfl, rfl, fun t h => ?xfer, fun f h => ?fault,
    fun t h => ?chkRd, fun addr val => ⟨⟨_, rfl, ?_, ?_⟩, ⟨_, rfl, ?_, ?_⟩, ⟨_, rfl, ?_, ?_⟩⟩⟩
  case xfer => rw [execXfer_after_cfg, h, mapNext_next, withContext_own_ports h]
  case fault => rw [execXfer_after_cfg, h, mapNext_fault]
  case chkRd => rw [execChkRd_after_cfg, h, mapNext_next, withContext_own_ports h]
  · exact State.buildWrite_byte_zero ..
  · exact len_eq_three_iff (State.buildWrite_len ..)
  · exact State.buildWrite_byte_zero ..
  · exact len_eq_three_iff (State.buildWrite_len ..)
  · exact State.buildRead_byte_zero ..
  · exact len_eq_three_iff (State.buildRead_len ..)

end Sys2Proof.Machine
end

section
/-! PROOFS. The good states (rules R22, R50 to R53): each kind of command keeps them, so every step does. -/

namespace Sys2Proof.Machine

/-! ### Frames the builders make are well formed -/

/-- The model's wire images are well-formed frames of the kind in their header. -/
theorem frameBytes_frameImage {k : Kind} (en : Bool) (addr : RegAddr) (chip : ChipAddr) {b1 : Byte}
    (hb1 : k = .rd → b1 = 0x00#8) : FrameBytes k (frameImage Config.spec en (header .doc k addr chip) b1) := by
  refine ⟨header .doc k addr chip, b1, header_doc_msb k addr chip, hb1, ?_⟩
  cases en with
  | false => exact .inl rfl
  | true => exact .inr rfl

theorem State.memWrite_wf (s : State) (i : Fin 3) (v : Byte) (h : Memory.wf s.buf = true) :
    Memory.wf (s.memWrite i v).buf = true :=
  Memory.wf_write s.buf i v h

theorem State.appendCrc_wf (p : Config.Params) (s : State) (h : Memory.wf s.buf = true) :
    Memory.wf (s.appendCrc p).buf = true := by
  cases hen : s.crcEn with
  | false => rw [State.appendCrc_off p s hen]; exact h
  | true => rw [State.appendCrc_on p s hen]; exact s.memWrite_wf _ _ h

theorem State.buildWrite_wf (p : Config.Params) (s : State) (addr : RegAddr) (val : Byte)
    (h : Memory.wf s.buf = true) : Memory.wf (s.buildWrite p addr val).buf = true :=
  State.appendCrc_wf p _ (State.memWrite_wf _ _ _ (s.memWrite_wf _ _ h))

theorem State.buildRead_wf (p : Config.Params) (s : State) (addr : RegAddr) (h : Memory.wf s.buf = true) :
    Memory.wf (s.buildRead p addr).buf = true :=
  State.appendCrc_wf p _
    (State.memWrite_wf _ _ _ (State.memWrite_wf _ _ _ (State.memWrite_wf _ _ _ (s.memWrite_wf _ _ h))))

/-! ### What keeps a state good -/

/-- The invariant reads only these five elements. -/
theorem State.Inv.of_same_frame {s t : State} (h : s.Inv) (hphase : t.phase = s.phase) (hlen : t.len = s.len)
    (hkind : t.kind = s.kind) (hbuf : t.buf = s.buf) (hwire : t.wire = s.wire) : t.Inv := by
  obtain ⟨hseq, hwf, hpending, hframes⟩ := h
  constructor
  · rwa [State.SequenceInv, hphase, hlen, hkind]
  · rwa [hbuf]
  · rwa [State.PendingFrameInv, hphase, hlen, hkind, hbuf]
  · rwa [State.WireInv, hwire]

/-- In the phase IDLE no frame waits and LEN and KIND are free. -/
theorem State.inv_of_idle {t : State} (hphase : t.phase = .idle) (hwf : Memory.wf t.buf = true) (hwire : t.WireInv) :
    t.Inv := by
  refine ⟨⟨?_, ?_⟩, hwf, ?_, hwire⟩
  · simp [hphase]
  · simp [hphase]
  · simp [State.PendingFrameInv, hphase]

/-- A built frame waits. -/
theorem State.inv_of_built {t : State} {en : Bool} (hphase : t.phase = .txReady)
    (hlen : t.len = if en then .three else .two) (hwf : Memory.wf t.buf = true)
    (hframe : FrameBytes t.kind t.pendingFrame) (hwire : t.WireInv) : t.Inv := by
  refine ⟨⟨fun _ => ?_, by simp [hphase]⟩, hwf, fun _ => hframe, hwire⟩
  cases en with
  | false => exact .inl hlen
  | true => exact .inr hlen

theorem State.Inv.buildWrite {s : State} (h : s.Inv) (addr : RegAddr) (val : Byte) :
    (s.buildWrite Config.spec addr val).Inv := by
  refine State.inv_of_built (s.buildWrite_phase ..) (s.buildWrite_len ..) (s.buildWrite_wf _ _ _ h.bufferWf) ?_ ?_
  · rw [State.buildWrite_pendingFrame, State.buildWrite_eq]
    exact frameBytes_frameImage (k := .wr) _ _ _ (nomatch ·)
  · rw [State.buildWrite_eq]
    exact h.wireFrames

theorem State.Inv.buildRead {s : State} (h : s.Inv) (addr : RegAddr) : (s.buildRead Config.spec addr).Inv := by
  refine State.inv_of_built (s.buildRead_phase ..) (s.buildRead_len ..) (s.buildRead_wf _ _ h.bufferWf) ?_ ?_
  · rw [State.buildRead_pendingFrame, State.buildRead_eq]
    exact frameBytes_frameImage (k := .rd) _ _ _ (fun _ => rfl)
  · rw [State.buildRead_eq]
    exact h.wireFrames

theorem State.Inv.checkResponse {s : State} (h : s.Inv) (p : Config.Params) : (s.checkResponse p).Inv := by
  obtain ⟨-, hc⟩ | ⟨-, -, hc⟩ | ⟨-, -, hc⟩ := s.checkResponse_cases p
  · exact hc ▸ h.of_same_frame rfl rfl rfl rfl rfl
  · exact hc ▸ State.inv_of_idle rfl h.bufferWf h.wireFrames
  · exact hc ▸ State.inv_of_idle rfl h.bufferWf h.wireFrames

theorem State.exchangeAnswered_wf {s : State} (h : Memory.wf s.buf = true) (tx : List Byte) (code : TCode)
    (rx : List Byte) : Memory.wf (s.exchangeAnswered tx code rx).buf = true := by
  obtain hbuf | ⟨bytes, -, hbuf⟩ := s.exchangeAnswered_buf_cases tx code rx
  · rwa [hbuf]
  · rw [hbuf]
    exact Memory.wf_writeFirst s.buf bytes h

theorem take_bytes_length (n : FrameLen) (r0 r1 r2 : Byte) :
    ([r0, r1, r2].take (FrameLen.bytes n)).length = FrameLen.bytes n := by
  cases n <;> rfl

/-- The exchange of a waiting frame adds a well-formed frame to the record, and after it no frame waits. -/
theorem State.Inv.exchangeAnswered {s : State} (h : s.Inv) (hp : s.phase = .txReady) (code : TCode) {rx : List Byte}
    (hrx : rx.length = s.pendingFrame.length) : (s.exchangeAnswered s.pendingFrame code rx).Inv := by
  obtain ⟨-, hphase⟩ := s.exchangeAnswered_status_phase s.pendingFrame code rx
  have hwf := State.exchangeAnswered_wf h.bufferWf s.pendingFrame code rx
  have hwire : (s.exchangeAnswered s.pendingFrame code rx).WireInv := by
    rw [State.exchangeAnswered_eq]
    intro e he
    obtain he | he := List.mem_append.mp he
    · exact h.wireFrames e he
    · obtain rfl := List.mem_singleton.mp he
      refine ⟨⟨s.kind, h.pendingFrame hp⟩, fun hc => ?_⟩
      exact (congrArg List.length (if_pos hc)).trans hrx
  by_cases hread : s.kind = .rd ∧ code = 0#32
  · rw [if_pos hread] at hphase
    refine ⟨⟨fun _ => ?_, fun _ => ?_⟩, hwf, fun hready => absurd (hphase.symm.trans hready) (by simp), hwire⟩
    · rw [State.exchangeAnswered_eq]
      exact h.sequence.1 (by simp [hp])
    · rw [State.exchangeAnswered_eq]
      exact hread.1
  · rw [if_neg hread] at hphase
    exact State.inv_of_idle hphase hwf hwire

theorem State.Inv.exec {i : Instr} {s t : State} (h : s.Inv) (hexec : exec i s = .next t) : t.Inv := by
  cases i with
  | xfer =>
    obtain ⟨-, rfl⟩ | ⟨hp, -, code, r0, r1, r2, -, rfl⟩ := execXfer_next_cases hexec
    · exact h.of_same_frame rfl rfl rfl rfl rfl
    · exact h.exchangeAnswered hp code (by rw [take_bytes_length, s.pendingFrame_length])
  | chkRd => exact Host.Outcome.next.inj hexec ▸ h.checkResponse Config.spec
  | buildWr addr val => exact Host.Outcome.next.inj hexec ▸ h.buildWrite addr val
  | buildWrr addr => exact Host.Outcome.next.inj hexec ▸ h.buildWrite addr s.res
  | buildRd addr => exact Host.Outcome.next.inj hexec ▸ h.buildRead addr
  | nop => exact Host.Outcome.next.inj hexec ▸ h.of_same_frame rfl rfl rfl rfl rfl
  | cfg en chip => exact Host.Outcome.next.inj hexec ▸ h.of_same_frame rfl rfl rfl rfl rfl
  | crcEnc b0 b1 => exact Host.Outcome.next.inj hexec ▸ h.of_same_frame rfl rfl rfl rfl rfl
  | crcDec b0 b1 => exact Host.Outcome.next.inj hexec ▸ h.of_same_frame rfl rfl rfl rfl rfl
  | merge mask mval => exact Host.Outcome.next.inj hexec ▸ h.of_same_frame rfl rfl rfl rfl rfl

/-- Moving the index on keeps a state good. -/
theorem State.Inv.advance {s : State} (h : s.Inv) : s.advance.Inv := h.of_same_frame rfl rfl rfl rfl rfl

/-- Settles O43: a command keeps the good states, an illegal word writes STATUS only, and a reset leaves no frame. -/
theorem stepKeepsInvariant : Obligations.StepKeepsInvariant := by
  intro s t h hstep
  obtain ⟨w, i, -, -, hexec⟩ | ⟨w, why, -, -, rfl⟩ | ⟨-, rfl⟩ := step_next_cases hstep
  · exact h.advance.exec hexec
  · exact h.advance.of_same_frame rfl rfl rfl rfl rfl
  · exact State.inv_of_idle rfl Memory.wf_reset h.wireFrames

/-- Settles O44: nothing waits, the buffer is empty and the record is too. -/
theorem resetMeetsInvariant : Obligations.ResetMeetsInvariant :=
  fun _ _ _ => State.inv_of_idle rfl Memory.wf_reset (fun _ he => absurd he List.not_mem_nil)

/-! ### What follows for runs -/

/-- A good state that waits to exchange has a frame length, so the fault for a missing one is out. -/
theorem execXfer_safe {s : State} (h : s.Inv) : SafeOutcome (execXfer s) := by
  obtain ⟨-, hx⟩ | ⟨hp, hl, -⟩ | ⟨-, -, hx⟩ := execXfer_cases s
  · rw [hx]
    trivial
  · exact absurd hl (FrameLen.ne_zero_of_two_or_three (h.sequence.1 (by simp [hp])))
  · obtain ⟨code, r0, r1, r2, -, ht⟩ | ⟨-, ht⟩ := s.transact_cases (FrameLen.bytes s.len)
    · rw [hx, ht]
      trivial
    · rw [hx, ht]
      rfl

/-- Settles O46: XFER is the only command that can fault. -/
theorem goodStatesAreSafe : Obligations.GoodStatesAreSafe := by
  intro s h
  obtain ⟨w, -, hstep⟩ | ⟨-, hstep⟩ | ⟨-, hstep⟩ := step_cases s
  · rw [hstep]
    obtain ⟨i, -, hw⟩ | ⟨why, -, hw⟩ := execWord_cases w s.advance
    · rw [hw]
      obtain rfl | rfl | ⟨t, ht, -⟩ := exec_completes_or i s.advance
      · exact execXfer_safe h.advance
      · trivial
      · rw [ht]
        trivial
    · rw [hw]
      trivial
  · rw [hstep]
    trivial
  · rw [hstep]
    trivial

theorem Reachable.inv {s : State} (h : Reachable s) : s.Inv := by
  induction h with
  | start inputs answers draws => exact resetMeetsInvariant inputs answers draws
  | step _ hstep ih => exact stepKeepsInvariant _ _ ih hstep

theorem FrameLen.code_eq_three_iff (n : FrameLen) : FrameLen.code n = 3#2 ↔ n = .three := by
  cases n <;> decide

theorem FrameLen.code_cases (n : FrameLen) : FrameLen.code n = 0#2 ∨ FrameLen.code n = 2#2 ∨ FrameLen.code n = 3#2 := by
  cases n <;> decide

theorem Status.code_le (st : Status) : Status.code st ≤ 4#3 := by
  cases st <;> decide

theorem Phase.code_eq_zero_iff (p : Phase) : Phase.code p = 0#2 ↔ p = .idle := by
  cases p <;> decide

theorem Phase.code_eq_two_iff (p : Phase) : Phase.code p = 2#2 ↔ p = .rxDone := by
  cases p <;> decide

/-- The LEN and CRC_EN ports after a build and before it. -/
theorem outputs_len_iff_crcEn {s t : State} (h : t.len = if s.crcEn then .three else .two) :
    t.outputs.len = 3#2 ↔ s.outputs.crcEn = 1#1 := by
  refine (FrameLen.code_eq_three_iff t.len).trans ((len_eq_three_iff h).trans ?_)
  change s.crcEn = true ↔ BitVec.ofBool s.crcEn = 1#1
  cases s.crcEn <;> decide

/-- Settles O45: the invariant in the codes of the outputs; the last item holds of every build. -/
theorem reachableStatesMeetR22 : Obligations.ReachableStatesMeetR22 := by
  intro s hs
  obtain ⟨hlen, hkind⟩ := hs.inv.sequence
  refine ⟨FrameLen.code_cases s.len, fun hp => ?len, fun hp => ?kind, Status.code_le s.status,
    fun addr val t ht => ?build⟩
  case len =>
    exact (hlen (mt (Phase.code_eq_zero_iff s.phase).mpr hp)).imp (congrArg FrameLen.code) (congrArg FrameLen.code)
  case kind => exact congrArg Kind.code (hkind ((Phase.code_eq_two_iff s.phase).mp hp))
  case build =>
    obtain h | h | h := ht
    · exact outputs_len_iff_crcEn (Host.Outcome.next.inj h ▸ s.buildWrite_len Config.spec addr val)
    · exact outputs_len_iff_crcEn (Host.Outcome.next.inj h ▸ s.buildWrite_len Config.spec addr s.res)
    · exact outputs_len_iff_crcEn (Host.Outcome.next.inj h ▸ s.buildRead_len Config.spec addr)

end Sys2Proof.Machine
end

section
/-! PROOFS. The CRC5 functions as affine maps over GF(2) (rules R76 to R78). A run is the run over zeros from the start
value, XOR one impulse response for each bit that is 1; the syndromes of rule R76 are these responses. -/

namespace Sys2Proof.Machine

/-! ### Linearity of a run -/

/-- The register after `n` zero bits. -/
def zeroRun (r : Crc5) (n : Nat) : Crc5 := (List.replicate n false).foldl (crc5Step Config.spec) r

/-- The register after a 1 and then `n` zero bits, from 0. -/
def impulse (n : Nat) : Crc5 := zeroRun (crc5Step Config.spec 0x00#5 true) n

theorem zeroRun_succ (r : Crc5) (n : Nat) : zeroRun r (n + 1) = zeroRun (crc5Step Config.spec r false) n := rfl

/-- What the register holds and what comes in add up. -/
theorem foldl_crc5Step_xor (l : List Bool) (r q : Crc5) :
    l.foldl (crc5Step Config.spec) (r ^^^ q) = zeroRun r l.length ^^^ l.foldl (crc5Step Config.spec) q := by
  induction l generalizing r q with
  | nil => rfl
  | cons d l ih =>
    have hstep : crc5Step Config.spec (r ^^^ q) d = crc5Step Config.spec r false ^^^ crc5Step Config.spec q d := by
      rw [← crc5Step_xor, Bool.false_xor]
    rw [List.foldl_cons, hstep, ih, List.length_cons, zeroRun_succ, List.foldl_cons]

theorem foldl_crc5Step_eq (l : List Bool) (r : Crc5) :
    l.foldl (crc5Step Config.spec) r = zeroRun r l.length ^^^ l.foldl (crc5Step Config.spec) 0x00#5 := by
  rw [← foldl_crc5Step_xor, BitVec.xor_zero]

/-- A part of the bits, from 0, is what it would be before zeros, XOR the rest from 0. -/
theorem foldl_crc5Step_append (l m : List Bool) :
    (l ++ m).foldl (crc5Step Config.spec) 0x00#5 =
      zeroRun (l.foldl (crc5Step Config.spec) 0x00#5) m.length ^^^ m.foldl (crc5Step Config.spec) 0x00#5 := by
  rw [List.foldl_append, foldl_crc5Step_eq m]

theorem zeroRun_xor (r q : Crc5) (n : Nat) : zeroRun (r ^^^ q) n = zeroRun r n ^^^ zeroRun q n := by
  rw [zeroRun, foldl_crc5Step_xor, List.length_replicate]
  rfl

theorem zeroRun_add (r : Crc5) (m n : Nat) : zeroRun (zeroRun r m) n = zeroRun r (m + n) := by
  rw [zeroRun, zeroRun, zeroRun, ← List.foldl_append, List.replicate_append_replicate]

@[simp] theorem zeroRun_zero (n : Nat) : zeroRun 0x00#5 n = 0x00#5 := by
  have hself := zeroRun_xor 0x00#5 0x00#5 n
  rwa [BitVec.xor_self, BitVec.xor_self] at hself

/-- The bits of a byte, and `t` zero bits after them, add one impulse response for each bit that is 1. -/
theorem zeroRun_foldl_msbBits (n t : Nat) (b : Byte) :
    zeroRun ((msbBits n b).foldl (crc5Step Config.spec) 0x00#5) t = synXor (fun i => impulse (i + t)) n b := by
  induction n with
  | zero => exact zeroRun_zero t
  | succ n ih =>
    have first_bit : zeroRun (zeroRun (crc5Step Config.spec 0x00#5 (b.getLsbD n)) n) t =
        if b.getLsbD n then impulse (n + t) else 0x00#5 := by
      rw [zeroRun_add]
      cases b.getLsbD n with
      | false => exact zeroRun_zero (n + t)
      | true => rfl
    rw [msbBits, List.foldl_cons, foldl_crc5Step_eq, msbBits_length, zeroRun_xor, ih, first_bit, synXor]
    rfl

/-! ### The syndromes are impulse responses -/

/-- The form depends on the first `n` values and the low `n` bits only. -/
theorem synXor_congr {f g : Nat → Crc5} {b c : Byte} {n : Nat} (hf : ∀ i < n, f i = g i)
    (hb : ∀ i < n, b.getLsbD i = c.getLsbD i) : synXor f n b = synXor g n c := by
  induction n with
  | zero => rfl
  | succ n ih =>
    have hrest := ih (fun i hi => hf i (Nat.lt_succ_of_lt hi)) (fun i hi => hb i (Nat.lt_succ_of_lt hi))
    rw [synXor, synXor, hf n (Nat.lt_succ_self n), hb n (Nat.lt_succ_self n), hrest]

theorem impulse_eq_syn1 : ∀ i < 8, impulse (i + 3) = syn1 i := by decide

/-- The bits of byte0 come eight steps before those of byte1. -/
theorem impulse_eq_syn0 : ∀ i < 8, impulse (i + 11) = syn0 i := by
  have eight_steps : ∀ i < 8, zeroRun (syn1 i) 8 = syn0 i := by decide
  intro i hi
  rw [← eight_steps i hi, ← impulse_eq_syn1 i hi]
  exact (zeroRun_add _ (i + 3) 8).symm

/-- The register after the bits of byte1 and the tail, were they all 0 (the values of rule R80). -/
theorem zeroRun_init : zeroRun 0x1F#5 11 = 0x04#5 := by
  calc zeroRun 0x1F#5 11 = zeroRun (zeroRun 0x1F#5 8) 3 := (zeroRun_add _ 8 3).symm
    _ = zeroRun 0x1A#5 3 := congrArg (zeroRun · 3) rfl
    _ = 0x04#5 := rfl

/-- The run of either variant, which takes `n` bits of byte0. -/
theorem crc5Run_eq_table {n : Nat} (hn : n ≤ 8) (b0 b1 : Byte) :
    crc5Run Config.spec (msbBits n b0 ++ msbBits 8 b1 ++ [false, false, false]) =
      zeroRun 0x04#5 n ^^^ synXor syn0 n b0 ^^^ synXor syn1 8 b1 := by
  have byte0 : zeroRun ((msbBits n b0).foldl (crc5Step Config.spec) 0x00#5) 11 = synXor syn0 n b0 := by
    rw [zeroRun_foldl_msbBits]
    exact synXor_congr (fun i hi => impulse_eq_syn0 i (Nat.lt_of_lt_of_le hi hn)) (fun _ _ => rfl)
  have byte1 : (msbBits 8 b1 ++ [false, false, false]).foldl (crc5Step Config.spec) 0x00#5 = synXor syn1 8 b1 := by
    rw [List.foldl_append]
    exact (zeroRun_foldl_msbBits 8 3 b1).trans (synXor_congr impulse_eq_syn1 fun _ _ => rfl)
  rw [crc5Run, List.append_assoc, foldl_crc5Step_eq, foldl_crc5Step_append, byte1]
  simp only [List.length_append, msbBits_length, List.length_cons, List.length_nil]
  rw [byte0, BitVec.xor_assoc, ← zeroRun_init, zeroRun_add, Nat.add_comm 11 n]
  rfl

theorem crc5Enc_eq_table (b0 b1 : Byte) : crc5Enc Config.spec b0 b1 = crc5EncTable b0 b1 := by
  rw [crc5Enc_spec, crc5Run_eq_table (Nat.le_refl 8)]
  rfl

theorem crc5Dec_eq_table (b0 b1 : Byte) : crc5Dec Config.spec b0 b1 = crc5DecTable b0 b1 := by
  rw [crc5Dec_spec, crc5Run_eq_table (by decide)]
  rfl

/-! ### The affine form (rule R76) -/

theorem synXor_xor (f : Nat → Crc5) (n : Nat) (b c : Byte) : synXor f n (b ^^^ c) = synXor f n b ^^^ synXor f n c := by
  induction n with
  | zero => exact BitVec.xor_zero.symm
  | succ n ih =>
    have bit : (if (b ^^^ c).getLsbD n then f n else 0x00) =
        (if b.getLsbD n then f n else 0x00) ^^^ (if c.getLsbD n then f n else 0x00) := by
      rw [BitVec.getLsbD_xor]
      cases b.getLsbD n <;> cases c.getLsbD n <;> simp
    rw [synXor, synXor, synXor, ih, bit]
    ac_rfl

/-- Two affine forms with one constant differ by their linear parts. -/
theorem affine_xor (k x y z w : Crc5) : k ^^^ (x ^^^ y) ^^^ (z ^^^ w) = k ^^^ x ^^^ z ^^^ (k ^^^ y ^^^ w) ^^^ k := by
  have cancel : k ^^^ k = 0x00#5 := BitVec.xor_self
  calc k ^^^ (x ^^^ y) ^^^ (z ^^^ w) = (k ^^^ k) ^^^ (k ^^^ (x ^^^ y) ^^^ (z ^^^ w)) := by rw [cancel, BitVec.zero_xor]
    _ = k ^^^ x ^^^ z ^^^ (k ^^^ y ^^^ w) ^^^ k := by ac_rfl

theorem crc5Dec_xor (x0 x1 y0 y1 : Byte) :
    crc5Dec Config.spec (x0 ^^^ y0) (x1 ^^^ y1) =
      crc5Dec Config.spec x0 x1 ^^^ crc5Dec Config.spec y0 y1 ^^^ 0x16#5 := by
  simp only [crc5Dec_eq_table, crc5DecTable, synXor_xor]
  exact affine_xor _ _ _ _ _

theorem crc5Enc_xor (x0 x1 y0 y1 : Byte) :
    crc5Enc Config.spec (x0 ^^^ y0) (x1 ^^^ y1) =
      crc5Enc Config.spec x0 x1 ^^^ crc5Enc Config.spec y0 y1 ^^^ 0x07#5 := by
  simp only [crc5Enc_eq_table, crc5EncTable, synXor_xor]
  exact affine_xor _ _ _ _ _

/-- Settles O3: a run is affine in its bits, with the syndromes as the responses to single bits. -/
theorem crcAffineTable : Obligations.CrcAffineTable :=
  ⟨fun b0 b1 => ⟨crc5Enc_eq_table b0 b1, crc5Dec_eq_table b0 b1⟩,
    fun x0 x1 y0 y1 => ⟨crc5Enc_xor x0 x1 y0 y1, crc5Dec_xor x0 x1 y0 y1⟩⟩

/-! ### The masked first byte (rules R77, R78) -/

theorem lowSix_getLsbD : ∀ i < 8, (0x3F#8).getLsbD i = decide (i < 6) := by decide

theorem synXor_six_masked (f : Nat → Crc5) (b : Byte) : synXor f 6 (b &&& 0x3F#8) = synXor f 6 b := by
  refine synXor_congr (fun _ _ => rfl) fun i hi => ?_
  rw [BitVec.getLsbD_and, lowSix_getLsbD i (by omega), decide_eq_true hi, Bool.and_true]

theorem crc5Dec_masked (b0 b1 : Byte) : crc5Dec Config.spec b0 b1 = crc5Dec Config.spec (b0 &&& 0x3F#8) b1 := by
  rw [crc5Dec_eq_table, crc5Dec_eq_table, crc5DecTable, crc5DecTable, synXor_six_masked]

/-- The two top bits of a masked byte add nothing. -/
theorem synXor_eight_masked (f : Nat → Crc5) (b : Byte) : synXor f 8 (b &&& 0x3F#8) = synXor f 6 b := by
  have bit7 : (b &&& 0x3F#8).getLsbD 7 = false := by simp
  have bit6 : (b &&& 0x3F#8).getLsbD 6 = false := by simp
  rw [synXor, synXor, bit7, bit6, synXor_six_masked]
  simp

theorem crc5Dec_eq_crc5Enc_masked (b0 b1 : Byte) :
    crc5Dec Config.spec b0 b1 = crc5Enc Config.spec (b0 &&& 0x3F#8) b1 ^^^ 0x11#5 := by
  have constants : (0x16 : Crc5) = 0x07 ^^^ 0x11#5 := rfl
  rw [crc5Dec_eq_table, crc5Enc_eq_table, crc5DecTable, crc5EncTable, synXor_eight_masked, constants]
  ac_rfl

/-- The encode CRC is the decode CRC with a nonzero value for each content of byte0[7:6]. -/
theorem crc5Enc_ne_crc5Dec (b0 b1 : Byte) : crc5Enc Config.spec b0 b1 ≠ crc5Dec Config.spec b0 b1 := by
  have top_two : ∀ b7 b6 : Bool,
      (if b7 then syn0 7 else 0x00) ^^^ (if b6 then syn0 6 else 0x00) ^^^ 0x11#5 ≠ 0x00#5 := by decide
  have constants : (0x07 : Crc5) = 0x16 ^^^ 0x11#5 := rfl
  have difference : crc5Enc Config.spec b0 b1 = crc5Dec Config.spec b0 b1 ^^^
      ((if b0.getLsbD 7 then syn0 7 else 0x00) ^^^ (if b0.getLsbD 6 then syn0 6 else 0x00) ^^^ 0x11#5) := by
    rw [crc5Enc_eq_table, crc5Dec_eq_table, crc5EncTable, crc5DecTable, synXor, synXor, constants]
    ac_rfl
  rw [difference]
  intro h
  exact top_two _ _ (by simpa using h)

/-- Settles O5: the table forms of the two variants differ in the constant and in the top two bits. -/
theorem decodeIsEncodeOfMaskedByte : Obligations.DecodeIsEncodeOfMaskedByte :=
  ⟨crc5Dec_eq_crc5Enc_masked, crc5Enc_ne_crc5Dec, rfl, rfl, rfl, rfl⟩

/-- Settles O4: CHK_RD reads BUF[0] through the decode CRC only. -/
theorem decodeCrcIgnoresTopTwoBits : Obligations.DecodeCrcIgnoresTopTwoBits := by
  refine ⟨crc5Dec_masked, fun s b0 h => ⟨s.checkResponse Config.spec, rfl, ?_⟩⟩
  have same_crc : crc5Dec Config.spec b0 (s.byte 1) = crc5Dec Config.spec (s.byte 0) (s.byte 1) := by
    rw [crc5Dec_masked, h, ← crc5Dec_masked]
  have same_verdict : (s.memWrite 0 b0).responseOk Config.spec = true ↔ s.responseOk Config.spec = true := by
    simp [State.responseOk_spec_iff, same_crc]
  have same_value : (s.memWrite 0 b0).byte 1 = s.byte 1 := by simp
  change exec .chkRd (s.memWrite 0 b0) = mapNext (State.memWrite · 0 b0) (exec .chkRd s)
  by_cases hp : s.phase = .rxDone
  · by_cases hok : s.responseOk Config.spec = true
    · refine eq_mapNext_of_next (exec_chkRd_of_ok hp hok) ?_
      rw [exec_chkRd_of_ok (s := s.memWrite 0 b0) hp (same_verdict.mpr hok), same_value]
      rfl
    · exact eq_mapNext_of_next (exec_chkRd_of_mismatch hp hok)
        (exec_chkRd_of_mismatch (s := s.memWrite 0 b0) hp (mt same_verdict.mp hok))
  · exact eq_mapNext_of_next ((outOfSequenceChangesOnlyStatus s).2 hp)
      ((outOfSequenceChangesOnlyStatus (s.memWrite 0 b0)).2 hp)

/-! ### The codec commands -/

theorem crcByte_le (c : Crc5) : c.zeroExtend 8 ≤ 0x1F#8 := by
  rw [BitVec.le_def, BitVec.toNat_setWidth, Nat.mod_eq_of_lt (Nat.lt_trans c.isLt (by decide))]
  exact Nat.le_of_lt_succ c.isLt

/-- Settles O7: both commands deliver their CRC, which has five bits. -/
theorem codecCommandsWriteRes : Obligations.CodecCommandsWriteRes :=
  fun _ _ _ => ⟨rfl, rfl, crcByte_le _, crcByte_le _⟩

end Sys2Proof.Machine
end

section
/-! PROOFS. What CHK_RD detects (rule R79): the verdict on a corrupted response is told by the pattern of errors alone,
through its syndrome. -/

namespace Sys2Proof.Machine

/-- What the errors add to the difference of the computed CRC and the received one: the syndromes of their bits. -/
def ErrorPattern.syndrome (e : ErrorPattern) : Crc5 :=
  synXor syn0 6 e.e0 ^^^ synXor syn1 8 e.e1 ^^^ e.e2.extractLsb' 0 5

theorem ErrorPattern.syndrome_and (e f : ErrorPattern) : (e.and f).syndrome = e.syndrome ^^^ f.syndrome := by
  simp only [ErrorPattern.syndrome, ErrorPattern.and, synXor_xor, BitVec.extractLsb'_xor]
  ac_rfl

theorem crc5Dec_flip (x0 x1 e0 e1 : Byte) :
    crc5Dec Config.spec (x0 ^^^ e0) (x1 ^^^ e1) =
      crc5Dec Config.spec x0 x1 ^^^ (synXor syn0 6 e0 ^^^ synXor syn1 8 e1) := by
  simp only [crc5Dec_eq_table, crc5DecTable, synXor_xor]
  ac_rfl

theorem State.holdsValidResponse_crc {s : State} (h : s.HoldsValidResponse) :
    crc5Dec Config.spec (s.byte 0) (s.byte 1) = (s.byte 2).extractLsb' 0 5 := by
  obtain ⟨-, -, hcrc⟩ := h
  rw [and_lowMask_eq_crcByte] at hcrc
  rw [← crcByte_extractLsb'_low (crc5Dec _ _ _), hcrc, crcByte_extractLsb'_low]

theorem State.holdsValidResponse_phase {s : State} : s.HoldsValidResponse → s.phase = .rxDone
  | ⟨hphase, _, _⟩ => hphase

theorem State.holdsValidResponse_len {s : State} : s.HoldsValidResponse → s.len = .three
  | ⟨_, hlen, _⟩ => hlen

theorem State.corrupt_byte (s : State) (e : ErrorPattern) :
    (s.corrupt e).byte 0 = s.byte 0 ^^^ e.e0 ∧ (s.corrupt e).byte 1 = s.byte 1 ^^^ e.e1 ∧
      (s.corrupt e).byte 2 = s.byte 2 ^^^ e.e2 := by
  simp [State.corrupt]

/-- The CRC being affine, a valid response passes with exactly the errors of syndrome 0. -/
theorem State.corrupt_responseOk_iff {s : State} (h : s.HoldsValidResponse) (e : ErrorPattern) :
    (s.corrupt e).responseOk Config.spec = true ↔ e.syndrome = 0#5 := by
  obtain ⟨byte0, byte1, byte2⟩ := s.corrupt_byte e
  have hlen : (s.corrupt e).len = .three := State.holdsValidResponse_len (s := s) h
  rw [State.responseOk_spec_iff, byte0, byte1, byte2, crc5Dec_flip, BitVec.extractLsb'_xor,
    State.holdsValidResponse_crc h, BitVec.xor_right_inj, ErrorPattern.syndrome, BitVec.xor_eq_zero_iff]
  exact ⟨fun hok => hok hlen, fun hzero _ => hzero⟩

theorem exec_chkRd_corrupt {s : State} (h : s.HoldsValidResponse) (e : ErrorPattern) :
    ∃ t, exec .chkRd (s.corrupt e) = .next t ∧ t.status = if e.syndrome = 0#5 then .ok else .eIntegrity := by
  have hphase : (s.corrupt e).phase = .rxDone := State.holdsValidResponse_phase (s := s) h
  by_cases hzero : e.syndrome = 0#5
  · rw [if_pos hzero]
    exact ⟨_, exec_chkRd_of_ok hphase ((State.corrupt_responseOk_iff h e).mpr hzero), rfl⟩
  · rw [if_neg hzero]
    exact ⟨_, exec_chkRd_of_mismatch hphase (mt (State.corrupt_responseOk_iff h e).mp hzero), rfl⟩

/-! ### The syndromes of the patterns of rule R79 -/

theorem syndrome_ne_zero_of_protected : ∀ e ∈ protectedBits, e.syndrome ≠ 0#5 := by decide

/-- Of the 19 syndromes, five pairs agree. -/
theorem syndrome_eq_iff_of_protected : ∀ e ∈ protectedBits, ∀ f ∈ protectedBits, e ≠ f →
    (e.syndrome = f.syndrome ↔ (e, f) ∈ undetectedPairs ∨ (f, e) ∈ undetectedPairs) := by decide

theorem syndrome_eq_zero_of_unprotected {e : ErrorPattern} (h0 : e.e0 &&& 0x3F#8 = 0) (h1 : e.e1 = 0)
    (h2 : e.e2 &&& 0x1F#8 = 0) : e.syndrome = 0#5 := by
  have low_zero : e.e2.extractLsb' 0 5 = 0#5 := by
    rw [← crcByte_extractLsb'_low (e.e2.extractLsb' 0 5), ← and_lowMask_eq_crcByte, h2]
    rfl
  rw [ErrorPattern.syndrome, ← synXor_six_masked, h0, h1, low_zero]
  rfl

/-- Settles O6: single errors have nonzero syndromes, and two errors cancel when their syndromes agree. -/
theorem checkDetectsErrors : Obligations.CheckDetectsErrors := by
  intro s h
  refine ⟨fun e he => ?single, fun e h0 h1 h2 => ?unprotected, fun e he f hf hne => ?double⟩
  case single =>
    obtain ⟨t, ht, hstatus⟩ := exec_chkRd_corrupt h e
    exact ⟨t, ht, hstatus.trans (if_neg (syndrome_ne_zero_of_protected e he))⟩
  case unprotected =>
    obtain ⟨t, ht, hstatus⟩ := exec_chkRd_corrupt h e
    exact ⟨t, ht, hstatus.trans (if_pos (syndrome_eq_zero_of_unprotected h0 h1 h2))⟩
  case double =>
    obtain ⟨t, ht, hstatus⟩ := exec_chkRd_corrupt h (e.and f)
    refine ⟨t, ht, ?_⟩
    have cancel : (e.and f).syndrome = 0#5 ↔ e.syndrome = f.syndrome := by
      rw [ErrorPattern.syndrome_and, BitVec.xor_eq_zero_iff]
    rw [hstatus, ← syndrome_eq_iff_of_protected e he f hf hne, ← cancel]
    simp

end Sys2Proof.Machine
end

section
/-! PROOFS. The corner cases of rules R74 and R75: each CRC value is taken equally often. XOR with a byte1 whose
syndromes add up to `c` permutes the operands and adds `c` to the CRC, so all fibres have one size. -/

namespace Sys2Proof.Machine

/-! ### Fibres of one size -/

/-- A function to the 32 CRC values that every value can be added to by a permutation takes each equally often. -/
theorem card_fiber_of_translations {α : Type} [Fintype α] (f : α → Crc5)
    (h : ∀ c : Crc5, ∃ σ : Equiv.Perm α, ∀ a, f (σ a) = f a ^^^ c) (c : Crc5) :
    32 * (Finset.univ.filter (fun a => f a = c)).card = Fintype.card α := by
  have one_size (d : Fin (2 ^ 5)) : (Finset.univ.filter (fun a => (f a).toFin = d)).card =
      (Finset.univ.filter (fun a => f a = c)).card := by
    obtain ⟨σ, hσ⟩ := h (BitVec.ofFin d ^^^ c)
    refine Finset.card_equiv σ fun a => ?_
    have shifted : f (σ a) = c ↔ (f a).toFin = d := by
      calc f (σ a) = c ↔ (f a ^^^ BitVec.ofFin d) ^^^ c = 0#5 ^^^ c := by rw [hσ, BitVec.xor_assoc, BitVec.zero_xor]
        _ ↔ f a = BitVec.ofFin d := by rw [BitVec.xor_left_inj, BitVec.xor_eq_zero_iff]
        _ ↔ (f a).toFin = d := BitVec.toFin_inj.symm
    simp [shifted]
  have cover := Finset.card_eq_sum_card_fiberwise (f := fun a => (f a).toFin) (s := Finset.univ) (t := Finset.univ)
    (fun _ _ => Finset.mem_univ _)
  simp only [one_size, Finset.sum_const, Finset.card_univ, Fintype.card_fin, smul_eq_mul] at cover
  exact cover.symm

/-! ### Adding a byte1 -/

/-- A number below 256 with the bits of a byte flipped. -/
def flipBits (b : Byte) (y : Fin 256) : Fin 256 := (BitVec.ofNat 8 y ^^^ b).toFin

theorem ofNat_flipBits (b : Byte) (y : Fin 256) : BitVec.ofNat 8 (flipBits b y) = BitVec.ofNat 8 y ^^^ b :=
  BitVec.ofNat_toNat _ _

theorem flipBits_involutive (b : Byte) : Function.Involutive (flipBits b) := by
  intro y
  apply Fin.ext
  have : (BitVec.ofNat 8 (flipBits b y) ^^^ b).toNat = y := by
    rw [ofNat_flipBits, BitVec.xor_assoc, BitVec.xor_self, BitVec.xor_zero, BitVec.toNat_ofNat]
    exact Nat.mod_eq_of_lt y.isLt
  exact this

/-- The syndromes of byte1 span the CRC values. -/
theorem synXor_syn1_surjective : ∀ c : Crc5, ∃ k : Fin 32, synXor syn1 8 (BitVec.ofNat 8 k) = c := by decide

/-- A function that byte1 enters through its syndromes takes each value equally often. -/
theorem card_fiber_of_byte1 {n : Nat} (f : Fin n × Fin 256 → Crc5)
    (hf : ∀ (x : Fin n) (y : Fin 256) (b : Byte), f (x, flipBits b y) = f (x, y) ^^^ synXor syn1 8 b) (c : Crc5) :
    32 * (Finset.univ.filter (fun p => f p = c)).card = n * 256 := by
  have translations (d : Crc5) : ∃ σ : Equiv.Perm (Fin n × Fin 256), ∀ p, f (σ p) = f p ^^^ d := by
    obtain ⟨k, hk⟩ := synXor_syn1_surjective d
    refine ⟨Equiv.prodCongr (Equiv.refl _) (flipBits_involutive (BitVec.ofNat 8 k)).toPerm, fun p => ?_⟩
    exact (hf p.1 p.2 _).trans (by rw [hk])
  rw [card_fiber_of_translations f translations, Fintype.card_prod, Fintype.card_fin, Fintype.card_fin]

theorem crc5Enc_xor_byte1 (b0 b1 b : Byte) :
    crc5Enc Config.spec b0 (b1 ^^^ b) = crc5Enc Config.spec b0 b1 ^^^ synXor syn1 8 b := by
  simp only [crc5Enc_eq_table, crc5EncTable, synXor_xor]
  ac_rfl

theorem crc5Dec_xor_byte1 (b0 b1 b : Byte) :
    crc5Dec Config.spec b0 (b1 ^^^ b) = crc5Dec Config.spec b0 b1 ^^^ synXor syn1 8 b := by
  simp only [crc5Dec_eq_table, crc5DecTable, synXor_xor]
  ac_rfl

/-- Settles O8: 65536 and 16384 operand pairs, in 32 fibres of one size. -/
theorem crcResultsAreUniform : Obligations.CrcResultsAreUniform := by
  intro c
  have enc := card_fiber_of_byte1
    (fun p : Fin 256 × Fin 256 => crc5Enc Config.spec (BitVec.ofNat 8 p.1) (BitVec.ofNat 8 p.2))
    (fun x y b => by rw [ofNat_flipBits, crc5Enc_xor_byte1]) c
  have dec := card_fiber_of_byte1
    (fun p : Fin 64 × Fin 256 => crc5Dec Config.spec (BitVec.ofNat 8 p.1) (BitVec.ofNat 8 p.2))
    (fun x y b => by rw [ofNat_flipBits, crc5Dec_xor_byte1]) c
  exact ⟨by omega, by omega⟩

end Sys2Proof.Machine
end

section
/-! PROOFS. The assembler (rules R60, R61): the word of each command by the formula of its row, and the refusal of
operands that do not fit. -/

namespace Sys2Proof

/-! ### Words as sums of shifted fields -/

theorem setWidth_append_eq_or {v w : Nat} (x : BitVec v) (y : BitVec w) :
    (x ++ y).setWidth 32 = x.setWidth 32 <<< w ||| y.setWidth 32 := by
  apply BitVec.eq_of_getLsbD_eq; intro k hk
  simp only [BitVec.getLsbD_or, BitVec.getLsbD_shiftLeft, BitVec.getLsbD_setWidth, BitVec.getLsbD_append, hk]
  by_cases h : k < w
  · simp [h]
  · have hx : k - w < 32 := by omega
    simp [h, hx, BitVec.getLsbD_of_ge y k (Nat.le_of_not_lt h)]

theorem cmdWord_eq_or (op : BitVec 4) (a b c : Byte) :
    cmdWord op a b c =
      op.setWidth 32 <<< 28 ||| a.setWidth 32 <<< 16 ||| b.setWidth 32 <<< 8 ||| c.setWidth 32 := by
  calc cmdWord op a b c = (op ++ 0#4 ++ a ++ b ++ c : BitVec (4 + 4 + 8 + 8 + 8)).setWidth 32 :=
        (BitVec.setWidth_eq _).symm
    _ = op.setWidth 32 <<< 28 ||| a.setWidth 32 <<< 16 ||| b.setWidth 32 <<< 8 ||| c.setWidth 32 := by
        rw [setWidth_append_eq_or, setWidth_append_eq_or, setWidth_append_eq_or, setWidth_append_eq_or]
        simp [BitVec.shiftLeft_or_distrib, ← BitVec.shiftLeft_add]

/-- A number that fits its field keeps its value in a word. -/
theorem setWidth_ofNat_of_fits {w n : Nat} (h : n < 2 ^ w) :
    (BitVec.ofNat w n).setWidth 32 = BitVec.ofNat 32 n := by
  apply BitVec.eq_of_toNat_eq
  simp [Nat.mod_eq_of_lt h]

theorem addrOperand_setWidth (addr : RegAddr) : (addrOperand addr).setWidth 32 = addr.setWidth 32 := by
  calc (addrOperand addr).setWidth 32 = (0#3 ++ addr : BitVec (3 + 5)).setWidth 32 := rfl
    _ = addr.setWidth 32 := by
        rw [setWidth_append_eq_or]
        simp

theorem ofBool_decide_setWidth {en : Nat} (h : en < 2) :
    (BitVec.ofBool (decide (en = 1))).setWidth 32 = BitVec.ofNat 32 en := by
  obtain rfl | rfl : en = 0 ∨ en = 1 := by omega
  · rfl
  · rfl

theorem cfgOperand_setWidth (en : Bool) (chip : ChipAddr) :
    (0#5 ++ chip ++ BitVec.ofBool en : Byte).setWidth 32 <<< 16 =
      chip.setWidth 32 <<< 17 ||| (BitVec.ofBool en).setWidth 32 <<< 16 := by
  calc (0#5 ++ chip ++ BitVec.ofBool en : Byte).setWidth 32 <<< 16
      = (0#5 ++ chip ++ BitVec.ofBool en : BitVec (5 + 2 + 1)).setWidth 32 <<< 16 := rfl
    _ = chip.setWidth 32 <<< 17 ||| (BitVec.ofBool en).setWidth 32 <<< 16 := by
        rw [setWidth_append_eq_or, setWidth_append_eq_or]
        simp [BitVec.shiftLeft_or_distrib, ← BitVec.shiftLeft_add]

/-! ### The encoding column of rule R60 -/

theorem encode_cfg {en chip : Nat} (hen : en < 2) (hchip : chip < 4) :
    encode (.cfg (decide (en = 1)) (BitVec.ofNat 2 chip)) =
      0x10000000#32 ||| (BitVec.ofNat 32 chip <<< 17) ||| (BitVec.ofNat 32 en <<< 16) := by
  rw [encode, cmdWord_eq_or, cfgOperand_setWidth, setWidth_ofNat_of_fits (w := 2) hchip, ofBool_decide_setWidth hen]
  simp [BitVec.or_assoc]

theorem encode_crcEnc {b0 b1 : Nat} (h0 : b0 < 256) (h1 : b1 < 256) :
    encode (.crcEnc (BitVec.ofNat 8 b0) (BitVec.ofNat 8 b1)) =
      0x20000000#32 ||| (BitVec.ofNat 32 b0 <<< 16) ||| (BitVec.ofNat 32 b1 <<< 8) := by
  rw [encode, cmdWord_eq_or, setWidth_ofNat_of_fits (w := 8) h0, setWidth_ofNat_of_fits (w := 8) h1]
  simp

theorem encode_crcDec {b0 b1 : Nat} (h0 : b0 < 256) (h1 : b1 < 256) :
    encode (.crcDec (BitVec.ofNat 8 b0) (BitVec.ofNat 8 b1)) =
      0x30000000#32 ||| (BitVec.ofNat 32 b0 <<< 16) ||| (BitVec.ofNat 32 b1 <<< 8) := by
  rw [encode, cmdWord_eq_or, setWidth_ofNat_of_fits (w := 8) h0, setWidth_ofNat_of_fits (w := 8) h1]
  simp

theorem encode_buildWr {addr val : Nat} (ha : addr < 32) (hv : val < 256) :
    encode (.buildWr (BitVec.ofNat 5 addr) (BitVec.ofNat 8 val)) =
      0x40000000#32 ||| (BitVec.ofNat 32 addr <<< 16) ||| (BitVec.ofNat 32 val <<< 8) := by
  rw [encode, cmdWord_eq_or, addrOperand_setWidth, setWidth_ofNat_of_fits (w := 5) ha,
    setWidth_ofNat_of_fits (w := 8) hv]
  simp

theorem encode_buildRd {addr : Nat} (ha : addr < 32) :
    encode (.buildRd (BitVec.ofNat 5 addr)) = 0x50000000#32 ||| (BitVec.ofNat 32 addr <<< 16) := by
  rw [encode, cmdWord_eq_or, addrOperand_setWidth, setWidth_ofNat_of_fits (w := 5) ha]
  simp

theorem encode_merge {mask val : Nat} (hm : mask < 256) (hv : val < 256) :
    encode (.merge (BitVec.ofNat 8 mask) (BitVec.ofNat 8 val)) =
      0x80000000#32 ||| (BitVec.ofNat 32 mask <<< 8) ||| BitVec.ofNat 32 val := by
  rw [encode, cmdWord_eq_or, setWidth_ofNat_of_fits (w := 8) hm, setWidth_ofNat_of_fits (w := 8) hv]
  simp

theorem encode_buildWrr {addr : Nat} (ha : addr < 32) :
    encode (.buildWrr (BitVec.ofNat 5 addr)) = 0x90000000#32 ||| (BitVec.ofNat 32 addr <<< 16) := by
  rw [encode, cmdWord_eq_or, addrOperand_setWidth, setWidth_ofNat_of_fits (w := 5) ha]
  simp

end Sys2Proof

namespace Sys2Proof.Machine

/-- A line assembles to its words exactly when its operands fit. -/
theorem assemble_eq_ite {src : Source} {fits : Prop} [Decidable fits] {words : List CmdWord}
    (hfits : src.wellFormed = true ↔ fits) (hwords : fits → (Source.commands src).map encode = words) :
    Source.assemble src = if fits then some words else none := by
  by_cases h : fits
  · rw [Source.assemble, if_pos (hfits.mpr h), if_pos h, hwords h]
  · rw [Source.assemble, if_neg (mt hfits.mp h), if_neg h]

/-- Settles O29: each line is its command's word when its operands fit, and refused when one does not. -/
theorem assemblerEncodings : Obligations.AssemblerEncodings := by
  refine ⟨fun en chip => ?cfg, fun b0 b1 => ?crcEnc, fun b0 b1 => ?crcDec, fun addr val => ?buildWr,
    fun addr => ?buildRd, fun mask val => ?merge, fun addr => ?buildWrr, rfl, rfl, rfl⟩
  case cfg =>
    exact assemble_eq_ite (by simp [Source.wellFormed, fitsField]) fun ⟨he, hc⟩ => by
      simp [Source.commands, encode_cfg he hc]
  case crcEnc =>
    exact assemble_eq_ite (by simp [Source.wellFormed, fitsField]) fun ⟨h0, h1⟩ => by
      simp [Source.commands, encode_crcEnc h0 h1]
  case crcDec =>
    exact assemble_eq_ite (by simp [Source.wellFormed, fitsField]) fun ⟨h0, h1⟩ => by
      simp [Source.commands, encode_crcDec h0 h1]
  case buildWr =>
    exact assemble_eq_ite (by simp [Source.wellFormed, fitsField]) fun ⟨ha, hv⟩ => by
      simp [Source.commands, encode_buildWr ha hv]
  case buildRd =>
    exact assemble_eq_ite (by simp [Source.wellFormed, fitsField]) fun ha => by
      simp [Source.commands, encode_buildRd ha]
  case merge =>
    exact assemble_eq_ite (by simp [Source.wellFormed, fitsField]) fun ⟨hm, hv⟩ => by
      simp [Source.commands, encode_merge hm hv]
  case buildWrr =>
    exact assemble_eq_ite (by simp [Source.wellFormed, fitsField]) fun ha => by
      simp [Source.commands, encode_buildWrr ha]

theorem encode_xfer : encode .xfer = 0x60000000#32 := rfl

theorem encode_chkRd : encode .chkRd = 0x70000000#32 := rfl

/-- Settles O30: the expansions of rule R61, command by command. -/
theorem pseudoInstructionExpansions : Obligations.PseudoInstructionExpansions := by
  refine ⟨fun addr val => ?write, fun addr => ?read, fun addr mask val => ?update⟩
  case write =>
    exact assemble_eq_ite (by simp [Source.wellFormed, fitsField]) fun ⟨ha, hv⟩ => by
      simp [Source.commands, encode_buildWr ha hv, encode_xfer]
  case read =>
    exact assemble_eq_ite (by simp [Source.wellFormed, fitsField]) fun ha => by
      simp [Source.commands, encode_buildRd ha, encode_xfer, encode_chkRd]
  case update =>
    exact assemble_eq_ite (by simp [Source.wellFormed, fitsField]) fun ⟨ha, hm, hv⟩ => by
      simp [Source.commands, encode_buildRd ha, encode_xfer, encode_chkRd, encode_merge hm hv, encode_buildWrr ha]

end Sys2Proof.Machine
end

section
/-! PROOFS. The bits of bytes on the wire (rules R32, R35), and that the canonical buffer is unique (log entry 11). -/

namespace Sys2Proof.Machine

/-! ### A byte from its bits -/

/-- One more bit arrives: the bits already there move up (the fold of `byteOfBits`). -/
def pushBit (acc : Byte) (d : Bool) : Byte := (acc <<< 1) ||| (BitVec.ofBool d).zeroExtend 8

theorem byteOfBits_eq_foldl_pushBit (bits : List Bool) : byteOfBits bits = bits.foldl pushBit 0#8 := rfl

theorem pushBit_getLsbD (acc : Byte) (d : Bool) {i : Nat} (hi : i < 8) :
    (pushBit acc d).getLsbD i = if i = 0 then d else acc.getLsbD (i - 1) := by
  cases i with
  | zero => cases d <;> simp [pushBit]
  | succ i => cases d <;> simp [pushBit, hi, BitVec.getLsbD_eq_getElem (Nat.lt_of_succ_lt hi)]

theorem foldl_pushBit_getLsbD (n : Nat) (b acc : Byte) {i : Nat} (hi : i < 8) :
    ((msbBits n b).foldl pushBit acc).getLsbD i = if i < n then b.getLsbD i else acc.getLsbD (i - n) := by
  induction n generalizing acc with
  | zero => rfl
  | succ n ih =>
    rw [msbBits, List.foldl_cons, ih]
    obtain h | rfl | h := Nat.lt_trichotomy i n
    · rw [if_pos h, if_pos (Nat.lt_succ_of_lt h)]
    · rw [if_neg (Nat.lt_irrefl i), if_pos (Nat.lt_succ_self i), Nat.sub_self, pushBit_getLsbD _ _ (by decide),
        if_pos rfl]
    · rw [if_neg (by omega), if_neg (by omega), pushBit_getLsbD _ _ (by omega), if_neg (by omega), Nat.sub_sub]

theorem byteOfBits_msbBits (b : Byte) : byteOfBits (msbBits 8 b) = b := by
  apply BitVec.eq_of_getLsbD_eq; intro i hi
  rw [byteOfBits_eq_foldl_pushBit, foldl_pushBit_getLsbD 8 b 0#8 hi, if_pos hi]

theorem receivedBytes_wireBits (tx : List Byte) : receivedBytes tx.length (wireBits tx) = tx := by
  induction tx with
  | nil => rfl
  | cons b rest ih =>
    have htake : (wireBits (b :: rest)).take 8 = msbBits 8 b := List.take_left' (msbBits_length 8 b)
    have hdrop : (wireBits (b :: rest)).drop 8 = wireBits rest := List.drop_left' (msbBits_length 8 b)
    rw [List.length_cons, receivedBytes, htake, hdrop, byteOfBits_msbBits, ih]

theorem wireBits_length (tx : List Byte) : (wireBits tx).length = 8 * tx.length := by
  induction tx with
  | nil => rfl
  | cons b rest ih => rw [wireBits, List.length_append, msbBits_length, ih, List.length_cons]; omega

theorem msbBits_getElem? (n : Nat) (b : Byte) {j : Nat} (hj : j < n) :
    (msbBits n b)[j]? = some (b.getLsbD (n - 1 - j)) := by
  induction n generalizing j with
  | zero => omega
  | succ n ih =>
    cases j with
    | zero => rfl
    | succ j =>
      rw [msbBits, List.getElem?_cons_succ, ih (by omega)]
      congr 2
      omega

theorem wireBits_getElem? {tx : List Byte} {k j : Nat} {b : Byte} (hk : tx[k]? = some b) (hj : j < 8) :
    (wireBits tx)[8 * k + j]? = some (b.getLsbD (7 - j)) := by
  induction tx generalizing k with
  | nil => exact nomatch hk
  | cons a rest ih =>
    cases k with
    | zero =>
      obtain rfl : a = b := by simpa using hk
      rw [wireBits, Nat.mul_zero, Nat.zero_add, List.getElem?_append_left (by rwa [msbBits_length])]
      exact msbBits_getElem? 8 a hj
    | succ k =>
      have past_first : 8 * (k + 1) + j - 8 = 8 * k + j := by omega
      rw [wireBits, List.getElem?_append_right (by rw [msbBits_length]; omega), msbBits_length, past_first]
      exact ih (by simpa using hk)

/-- Settles O41: the bits of a byte make it again, and the bytes' bits stand one after the other. -/
theorem wireBitsMakeTheBytes : Obligations.WireBitsMakeTheBytes :=
  ⟨fun tx => ⟨receivedBytes_wireBits tx, wireBits_length tx⟩,
    fun _ => ⟨rfl, fun _ _ _ hk hj => wireBits_getElem? hk hj⟩⟩

/-! ### Canonical buffers -/

theorem Memory.wfFrom_cons_iff (low a : Nat) (v : Byte) (rest : Memory) :
    Memory.wfFrom low ((a, v) :: rest) = true ↔
      low ≤ a ∧ a < 3 ∧ v ≠ unlistedByte ∧ Memory.wfFrom (a + 1) rest = true := by
  simp [Memory.wfFrom]

theorem Memory.cell_of_lt {m : Memory} {low i : Nat} (h : Memory.wfFrom low m = true) (hi : i < low) :
    Memory.cell m i = unlistedByte := by
  induction m generalizing low with
  | nil => rfl
  | cons e rest ih =>
    obtain ⟨a, v⟩ := e
    obtain ⟨hlow, -, -, hrest⟩ := (Memory.wfFrom_cons_iff low a v rest).mp h
    rw [Memory.cell, if_neg (by omega), ih hrest (by omega)]

/-- The first entry of a canonical list shows that another one has an entry at its address or below. -/
theorem Memory.eq_of_cell_eq {m n : Memory} {low : Nat} (hm : Memory.wfFrom low m = true)
    (hn : Memory.wfFrom low n = true) (h : ∀ i < 3, low ≤ i → Memory.cell m i = Memory.cell n i) : m = n := by
  induction m generalizing low n with
  | nil =>
    cases n with
    | nil => rfl
    | cons e rest =>
      obtain ⟨a, v⟩ := e
      obtain ⟨hlow, ha, hv, -⟩ := (Memory.wfFrom_cons_iff low a v rest).mp hn
      exact absurd (by simpa [Memory.cell] using (h a ha hlow).symm) hv
  | cons e rest ih =>
    obtain ⟨a, v⟩ := e
    obtain ⟨hlow, ha, hv, hrest⟩ := (Memory.wfFrom_cons_iff low a v rest).mp hm
    cases n with
    | nil => exact absurd (by simpa [Memory.cell] using h a ha hlow) hv
    | cons e' rest' =>
      obtain ⟨b, w⟩ := e'
      obtain ⟨hlow', hb, hw, hrest'⟩ := (Memory.wfFrom_cons_iff low b w rest').mp hn
      obtain hab | rfl | hba := Nat.lt_trichotomy a b
      · have unlisted := Memory.cell_of_lt (low := b) (i := a)
          ((Memory.wfFrom_cons_iff b b w rest').mpr ⟨Nat.le_refl b, hb, hw, hrest'⟩) hab
        exact absurd (by simpa [Memory.cell] using (h a ha hlow).trans unlisted) hv
      · have same_byte : v = w := by simpa [Memory.cell] using h a ha hlow
        have same_rest : rest = rest' := ih hrest hrest' fun i hi hai => by
          have hne : a ≠ i := by omega
          simpa [Memory.cell, hne] using h i hi (by omega)
        rw [same_byte, same_rest]
      · have unlisted := Memory.cell_of_lt (low := a) (i := b)
          ((Memory.wfFrom_cons_iff a a v rest).mpr ⟨Nat.le_refl a, ha, hv, hrest⟩) hba
        exact absurd (by simpa [Memory.cell] using (h b hb hlow').symm.trans unlisted) hw

/-- Settles O42: the three indices are all the addresses a canonical list can have. -/
theorem canonicalBuffersAreEqual : Obligations.CanonicalBuffersAreEqual :=
  fun _ _ hm hn h => Memory.eq_of_cell_eq hm hn fun i hi _ => h ⟨i, hi⟩

end Sys2Proof.Machine
end

section
/-! PROOFS. The transactions a Host issues (rules R61, R101, R102), and that stepping through their words is issuing
them. -/

namespace Sys2Proof.Machine

/-! ### Issuing words -/

theorem issue_encode_ok {i : Instr} {s t : State} (rest : List CmdWord) (h : exec i s = .next t)
    (hok : t.status = .ok) : issue (encode i :: rest) s = issue rest t :=
  issue_cons_ok _ rest s t ((execWord_encode i s).trans h) hok

theorem issue_encode_stop {i : Instr} {s t : State} (rest : List CmdWord) (h : exec i s = .next t)
    (hne : t.status ≠ .ok) : issue (encode i :: rest) s = .next t :=
  issue_cons_stop _ rest s t ((execWord_encode i s).trans h) hne

/-- The last word's outcome is the list's, whatever its STATUS. -/
theorem issue_encode_last (i : Instr) (s : State) : issue [encode i] s = exec i s := by
  rw [← execWord_encode]
  obtain ⟨t, hw, -, hissue⟩ | ⟨t, hw, -, hissue⟩ | ⟨f, hw, hissue⟩ | ⟨r, hw, hissue⟩ := issue_cons_cases (encode i) [] s
  · rw [hissue, hw, issue_nil]
  · rw [hissue, hw]
  · rw [hissue, hw]
  · rw [hissue, hw]

theorem issue_append_ok {l : List CmdWord} (m : List CmdWord) {s u : State} (h : issue l s = .next u)
    (hok : u.status = .ok) : issue (l ++ m) s = issue m u := by
  induction l generalizing s with
  | nil => rw [List.nil_append, Host.Outcome.next.inj h]
  | cons w rest ih =>
    obtain ⟨t, hw, ht, hissue⟩ | ⟨t, -, ht, hissue⟩ | ⟨f, -, hissue⟩ | ⟨r, -, hissue⟩ := issue_cons_cases w rest s
    · exact (issue_cons_ok w (rest ++ m) s t hw ht).trans (ih (hissue.symm.trans h))
    · obtain rfl := Host.Outcome.next.inj (hissue.symm.trans h)
      exact absurd hok ht
    · exact nomatch hissue.symm.trans h
    · exact nomatch hissue.symm.trans h

theorem issue_append_stop {l : List CmdWord} (m : List CmdWord) {s u : State} (hl : l ≠ []) (h : issue l s = .next u)
    (hne : u.status ≠ .ok) : issue (l ++ m) s = .next u := by
  induction l generalizing s with
  | nil => exact absurd rfl hl
  | cons w rest ih =>
    obtain ⟨t, hw, ht, hissue⟩ | ⟨t, hw, ht, hissue⟩ | ⟨f, -, hissue⟩ | ⟨r, -, hissue⟩ := issue_cons_cases w rest s
    · have hrest : issue rest t = .next u := hissue.symm.trans h
      have nonempty : rest ≠ [] := by
        rintro rfl
        exact hne (Host.Outcome.next.inj hrest ▸ ht)
      exact (issue_cons_ok w (rest ++ m) s t hw ht).trans (ih nonempty hrest)
    · obtain rfl := Host.Outcome.next.inj (hissue.symm.trans h)
      exact issue_cons_stop w (rest ++ m) s t hw ht
    · exact nomatch hissue.symm.trans h
    · exact nomatch hissue.symm.trans h

/-! ### The words of the pseudo-instructions -/

theorem issueSource_of_wellFormed {src : Source} (h : src.wellFormed = true) (s : State) :
    issueSource src s = issue ((Source.commands src).map encode) s := by
  rw [issueSource, Source.assemble, if_pos h]

/-- The commands of `read addr`. -/
def readCommands (addr : RegAddr) : List Instr := [.buildRd addr, .xfer, .chkRd]

theorem issueSource_write (addr : RegAddr) (val : Byte) (s : State) :
    issueSource (.write addr.toNat val.toNat) s = issue [encode (.buildWr addr val), encode .xfer] s := by
  rw [issueSource_of_wellFormed]
  · simp [Source.commands]
  · simpa [Source.wellFormed, fitsField] using ⟨addr.isLt, val.isLt⟩

theorem issueSource_read (addr : RegAddr) (s : State) :
    issueSource (.read addr.toNat) s = issue ((readCommands addr).map encode) s := by
  rw [issueSource_of_wellFormed]
  · simp [Source.commands, readCommands]
  · simpa [Source.wellFormed, fitsField] using addr.isLt

theorem issueSource_update (addr : RegAddr) (mask val : Byte) (s : State) :
    issueSource (.update addr.toNat mask.toNat val.toNat) s =
      issue ((readCommands addr).map encode ++
        [encode (.merge mask val), encode (.buildWrr addr), encode .xfer]) s := by
  rw [issueSource_of_wellFormed]
  · simp [Source.commands, readCommands]
  · simpa [Source.wellFormed, fitsField] using ⟨addr.isLt, mask.isLt, val.isLt⟩

/-! ### Sending a frame -/

section
variable (p : Config.Params) (s : State) (addr : RegAddr) (val : Byte)

theorem State.buildWrite_wire : (s.buildWrite p addr val).wire = s.wire := by rw [State.buildWrite_eq]
theorem State.buildWrite_res : (s.buildWrite p addr val).res = s.res := by rw [State.buildWrite_eq]
theorem State.buildWrite_kind : (s.buildWrite p addr val).kind = .wr := by rw [State.buildWrite_eq]
theorem State.buildRead_wire : (s.buildRead p addr).wire = s.wire := by rw [State.buildRead_eq]
theorem State.buildRead_res : (s.buildRead p addr).res = s.res := by rw [State.buildRead_eq]
theorem State.buildRead_kind : (s.buildRead p addr).kind = .rd := by rw [State.buildRead_eq]

theorem State.buildWrite_transportAnswers (tx : List Byte) :
    (s.buildWrite p addr val).transportAnswers tx = s.transportAnswers tx := by
  rw [State.buildWrite_eq]
  rfl

theorem State.buildRead_transportAnswers (tx : List Byte) :
    (s.buildRead p addr).transportAnswers tx = s.transportAnswers tx := by
  rw [State.buildRead_eq]
  rfl

end

theorem len_two_or_three {n : FrameLen} {en : Bool} (h : n = if en then .three else .two) : n = .two ∨ n = .three := by
  cases en with
  | false => exact .inl h
  | true => exact .inr h

section
variable (s : State) (tx : List Byte) (code : TCode) (rx : List Byte)

theorem State.exchangeAnswered_wire :
    (s.exchangeAnswered tx code rx).wire = s.wire ++ [⟨tx, code, if code = 0#32 then rx else []⟩] := by
  rw [State.exchangeAnswered_eq]

theorem State.exchangeAnswered_terr : (s.exchangeAnswered tx code rx).terr = code := by
  rw [State.exchangeAnswered_eq]

theorem State.exchangeAnswered_res : (s.exchangeAnswered tx code rx).res = s.res := by
  rw [State.exchangeAnswered_eq]

end

/-- XFER of a frame that waits and is answered. -/
theorem execXfer_sends {s : State} {code : TCode} {r0 r1 r2 : Byte} (hp : s.phase = .txReady)
    (hl : s.len = .two ∨ s.len = .three) (h : s.transportAnswers s.pendingFrame = .answer code r0 r1 r2) :
    ∃ rx, exec .xfer s = .next (s.exchangeAnswered s.pendingFrame code rx) :=
  ⟨_, execXfer_of_answer hp hl h⟩

/-- A builder of a write frame and XFER: one exchange, and no response to check. -/
theorem issue_write_frame {i : Instr} {s : State} {addr : RegAddr} {val : Byte} {code : TCode} {r0 r1 r2 : Byte}
    (hbuild : exec i s = .next (s.buildWrite Config.spec addr val))
    (h : s.transportAnswers (wireImage s 1#1 addr val) = .answer code r0 r1 r2) :
    ∃ t rx, issue [encode i, encode .xfer] s = .next t ∧
      t.wire = s.wire ++ [⟨wireImage s 1#1 addr val, code, rx⟩] ∧ t.phase = .idle ∧ t.terr = code ∧
      t.status = (if code = 0#32 then .ok else .eTransport) ∧ t.res = s.res := by
  have himage : (s.buildWrite Config.spec addr val).pendingFrame = wireImage s 1#1 addr val :=
    (s.buildWrite_pendingFrame ..).trans (wireImage_write s addr val).symm
  obtain ⟨rx, hx⟩ := execXfer_sends (s.buildWrite_phase Config.spec addr val)
    (len_two_or_three (s.buildWrite_len Config.spec addr val))
    ((s.buildWrite_transportAnswers Config.spec addr val _).trans (himage ▸ h))
  rw [issue_encode_ok _ hbuild (s.buildWrite_status ..), issue_encode_last, hx, himage]
  obtain ⟨hstatus, hphase⟩ := State.exchangeAnswered_status_phase (s.buildWrite Config.spec addr val)
    (wireImage s 1#1 addr val) code rx
  refine ⟨_, if code = 0#32 then rx else [], rfl, ?_, ?_, State.exchangeAnswered_terr .., hstatus, ?_⟩
  · rw [State.exchangeAnswered_wire, State.buildWrite_wire]
  · simpa [State.buildWrite_kind] using hphase
  · rw [State.exchangeAnswered_res, State.buildWrite_res]

/-- Settles O47: `write` is BUILD_WR and XFER. -/
theorem writeTransaction : Obligations.WriteTransaction := by
  intro s addr val code r0 r1 r2 h
  rw [issueSource_write]
  exact issue_write_frame rfl h

/-! ### Reading -/

theorem issueSource_read_eq (addr : RegAddr) (s : State) :
    issueSource (.read addr.toNat) s = issue [encode .xfer, encode .chkRd] (s.buildRead Config.spec addr) := by
  rw [issueSource_read]
  exact issue_encode_ok [encode .xfer, encode .chkRd] rfl (s.buildRead_status Config.spec addr)

section
variable {s : State} {addr : RegAddr} {code : TCode} {r0 r1 r2 : Byte}

/-- The request that waits after BUILD_RD meets the answer to its image. -/
theorem buildRead_answered (h : s.transportAnswers (wireImage s 0#1 addr 0x00#8) = .answer code r0 r1 r2) :
    (s.buildRead Config.spec addr).transportAnswers (s.buildRead Config.spec addr).pendingFrame =
      .answer code r0 r1 r2 := by
  rw [State.buildRead_transportAnswers, State.buildRead_pendingFrame]
  exact h

/-- The exchange of a request fails: the read ends with it. -/
theorem issueSource_read_failed (h : s.transportAnswers (wireImage s 0#1 addr 0x00#8) = .answer code r0 r1 r2)
    (hc : code ≠ 0#32) :
    ∃ t rx, issueSource (.read addr.toNat) s = .next t ∧
      t.wire = s.wire ++ [⟨wireImage s 0#1 addr 0x00#8, code, rx⟩] ∧ t.phase = .idle ∧ t.terr = code ∧
      t.status = .eTransport ∧ t.res = s.res := by
  obtain ⟨rx, hx⟩ := execXfer_sends (s.buildRead_phase Config.spec addr)
    (len_two_or_three (s.buildRead_len Config.spec addr)) (buildRead_answered h)
  obtain ⟨hstatus, hphase⟩ := State.exchangeAnswered_status_phase (s.buildRead Config.spec addr)
    (s.buildRead Config.spec addr).pendingFrame code rx
  rw [if_neg hc] at hstatus
  rw [if_neg fun hread => hc hread.2] at hphase
  refine ⟨_, if code = 0#32 then rx else [],
    (issueSource_read_eq addr s).trans (issue_encode_stop _ hx (by simp [hstatus])), ?_, hphase,
    State.exchangeAnswered_terr .., hstatus, ?_⟩
  · rw [State.exchangeAnswered_wire, State.buildRead_wire, State.buildRead_pendingFrame, wireImage_read]
  · rw [State.exchangeAnswered_res, State.buildRead_res]

/-- The exchange of a request succeeds: a response waits to be checked. -/
theorem exec_xfer_request (h : s.transportAnswers (wireImage s 0#1 addr 0x00#8) = .answer 0#32 r0 r1 r2) :
    ∃ x rx, exec .xfer (s.buildRead Config.spec addr) = .next x ∧ x.phase = .rxDone ∧ x.status = .ok ∧
      x.wire = s.wire ++ [⟨wireImage s 0#1 addr 0x00#8, 0#32, rx⟩] ∧ x.terr = 0#32 ∧ x.res = s.res ∧
      x.byte 1 = r1 ∧
      (x.responseOk Config.spec = true ↔ (s.crcEn = true → crc5Dec Config.spec r0 r1 = r2.extractLsb' 0 5)) := by
  have hlen := s.buildRead_len Config.spec addr
  obtain ⟨x, hx, byte0, byte1, byte2, hframe⟩ := xferReadTakesResponse _ r0 r1 r2 (s.buildRead_phase Config.spec addr)
    (s.buildRead_kind Config.spec addr) (len_two_or_three hlen) (buildRead_answered h)
  have hphase : x.phase = .rxDone := by rw [hframe]
  have hstatus : x.status = .ok := by rw [hframe]
  have hterr : x.terr = 0#32 := by rw [hframe]
  have hres : x.res = s.res := by rw [hframe, State.buildRead_res]
  have hxlen : x.len = if s.crcEn then .three else .two := by rw [hframe, hlen]
  have hwire := congrArg State.wire hframe
  rw [State.buildRead_wire, State.buildRead_pendingFrame] at hwire
  refine ⟨x, _, hx, hphase, hstatus, hwire, hterr, hres, byte1, ?_⟩
  rw [State.responseOk_spec_iff, len_eq_three_iff hxlen, byte0, byte1, byte2, hlen]
  refine forall_congr' fun hen => ?_
  rw [if_pos hen, if_pos rfl]

end

/-- Settles O48: a failed exchange ends the read; after a successful one CHK_RD compares the CRC if LEN is 3. -/
theorem readTransaction : Obligations.ReadTransaction := by
  intro s addr code r0 r1 r2 h
  by_cases hc : code = 0#32
  · subst hc
    obtain ⟨x, rx, hx, hphase, hstatus, hwire, hterr, hres, hbyte, hverdict⟩ := exec_xfer_request h
    rw [issueSource_read_eq, issue_encode_ok _ hx hstatus, issue_encode_last]
    by_cases hok : x.responseOk Config.spec = true
    · refine ⟨_, rx, exec_chkRd_of_ok hphase hok, hwire, rfl, hterr, fun hc => absurd rfl hc, fun _ hen hne => ?_,
        fun _ _ => ⟨rfl, hbyte⟩⟩
      exact absurd (hverdict.mp hok hen) hne
    · exact ⟨_, rx, exec_chkRd_of_mismatch hphase hok, hwire, rfl, hterr, fun hc => absurd rfl hc,
        fun _ _ _ => ⟨rfl, hres⟩, fun _ hmatch => absurd (hverdict.mpr hmatch) hok⟩
  · obtain ⟨t, rx, ht, hwire, hphase, hterr, hstatus, hres⟩ := issueSource_read_failed h hc
    exact ⟨t, rx, ht, hwire, hphase, hterr, fun _ => ⟨hstatus, hres⟩, fun h0 => absurd h0 hc, fun h0 => absurd h0 hc⟩

/-! ### Updating -/

/-- After a read that ends OK the update goes on with the merged value in RES. -/
theorem issueSource_update_of_ok {s u : State} {addr : RegAddr} (h : issueSource (.read addr.toNat) s = .next u)
    (hok : u.status = .ok) (mask val : Byte) :
    issueSource (.update addr.toNat mask.toNat val.toNat) s =
      issue [encode (.buildWrr addr), encode .xfer] { u with res := mergeValue u.res mask val, status := .ok } := by
  rw [issueSource_read] at h
  rw [issueSource_update, issue_append_ok _ h hok]
  exact issue_encode_ok _ (exec_merge mask val u) rfl

/-- Settles O49: the read's end decides whether the merged value is written. -/
theorem updateTransaction : Obligations.UpdateTransaction := by
  intro s u addr mask val h
  refine ⟨fun hne => ?_, fun code r0 r1 r2 hok hanswer => ?_⟩
  · rw [issueSource_read] at h
    rw [issueSource_update]
    exact issue_append_stop _ (by simp [readCommands]) h hne
  · rw [issueSource_update_of_ok h hok]
    obtain ⟨t, rx, ht, hwire, hphase, hterr, hstatus, hres⟩ := issue_write_frame (i := .buildWrr addr)
      (s := { u with res := mergeValue u.res mask val, status := .ok }) rfl hanswer
    exact ⟨t, rx, ht, hwire, hres, hphase, hterr, hstatus⟩

theorem mergeValue_and_not_mask (old mask val : Byte) : mergeValue old mask val &&& ~~~mask = old &&& ~~~mask := by
  apply BitVec.eq_of_getLsbD_eq; intro i hi
  simp only [BitVec.getLsbD_and, BitVec.getLsbD_not, mergeValue_getLsbD _ _ _ hi, hi]
  cases mask.getLsbD i <;> simp

theorem mergeValue_and_mask (old mask val : Byte) : mergeValue old mask val &&& mask = val &&& mask := by
  apply BitVec.eq_of_getLsbD_eq; intro i hi
  simp only [BitVec.getLsbD_and, mergeValue_getLsbD _ _ _ hi]
  cases mask.getLsbD i <;> simp

/-- Byte1 of a write frame is the value. -/
theorem writeImage_getElem?_one (p : Config.Params) (en : Bool) (chip : ChipAddr) (addr : RegAddr) (val : Byte) :
    (writeImage p en chip addr val)[1]? = some val := by
  cases en <;> rfl

/-- Settles O50: the update's write sends the merged value in byte1 of its frame. -/
theorem updatePreservesUnmaskedBits : Obligations.UpdatePreservesUnmaskedBits := by
  intro s u t addr mask val h hok ht
  rw [issueSource_update_of_ok h hok, issue_encode_ok _ rfl (State.buildWrite_status ..), issue_encode_last] at ht
  obtain ⟨hp, -⟩ | ⟨-, -, code, r0, r1, r2, -, rfl⟩ := execXfer_next_cases ht
  · exact absurd (State.buildWrite_phase ..) hp
  · rw [State.exchangeAnswered_wire, State.buildWrite_wire, State.buildWrite_pendingFrame]
    exact ⟨_, mergeValue u.res mask val, rfl, writeImage_getElem?_one .., mergeValue_and_not_mask ..,
      mergeValue_and_mask ..⟩

end Sys2Proof.Machine
end

section
/-! PROOFS. Stepping through a program against issuing its words (rules R12, R61): a command has its meaning whatever
stands at the Host's ports. -/

namespace Sys2Proof.Machine

/-! ### Commands pass the ports through -/

/-- Only CFG changes the configuration, so its own configuration is a context for every other command. -/
theorem withContext_own_config {i : Instr} {s t : State} (h : exec i s = .next t) (hi : ∀ en chip, i ≠ .cfg en chip)
    (l : List PortInput) (n : Nat) : t.withContext s.crcEn s.chipAddr l n = t.atPorts l n := by
  obtain ⟨hconfig, -⟩ := onlyTheirWritersChangeElements i s t h
  obtain ⟨hen, hchip⟩ := hconfig hi
  rw [State.withContext, State.setConfig, ← hen, ← hchip]

theorem exec_atPorts {i : Instr} {s t : State} (h : exec i s = .next t) (l : List PortInput) (n : Nat) :
    exec i (s.atPorts l n) = .next (t.atPorts l n) := by
  cases i with
  | xfer =>
    have hcontext := execXfer_withContext s.crcEn s.chipAddr l n s
    rw [show execXfer s = .next t from h, mapNext_next, withContext_own_config h (by simp)] at hcontext
    exact hcontext
  | chkRd =>
    have hcontext := execChkRd_withContext s.crcEn s.chipAddr l n s
    rw [show execChkRd s = .next t from h, mapNext_next, withContext_own_config h (by simp)] at hcontext
    exact hcontext
  | buildWr addr val =>
    obtain rfl := Host.Outcome.next.inj h
    exact congrArg Host.Outcome.next (s.buildWrite_atPorts Config.spec addr val s.status l n)
  | buildWrr addr =>
    obtain rfl := Host.Outcome.next.inj h
    exact congrArg Host.Outcome.next (s.buildWrite_atPorts Config.spec addr s.res s.status l n)
  | buildRd addr =>
    obtain rfl := Host.Outcome.next.inj h
    exact congrArg Host.Outcome.next (s.buildRead_atPorts Config.spec addr s.status l n)
  | nop => obtain rfl := Host.Outcome.next.inj h; rfl
  | cfg en chip => obtain rfl := Host.Outcome.next.inj h; rfl
  | crcEnc b0 b1 => obtain rfl := Host.Outcome.next.inj h; rfl
  | crcDec b0 b1 => obtain rfl := Host.Outcome.next.inj h; rfl
  | merge mask mval => obtain rfl := Host.Outcome.next.inj h; rfl

theorem execWord_atPorts {w : CmdWord} {s t : State} (h : execWord w s = .next t) (l : List PortInput) (n : Nat) :
    execWord w (s.atPorts l n) = .next (t.atPorts l n) := by
  obtain ⟨i, hd, hw⟩ | ⟨why, hd, hw⟩ := execWord_cases w s
  · rw [execWord, hd]
    exact exec_atPorts (hw.symm.trans h) l n
  · obtain rfl := Host.Outcome.next.inj (hw.symm.trans h)
    rw [execWord, hd]
    rfl

/-! ### A run is a list of steps -/

theorem run_succ_of_next {s t : State} (h : step s = .next t) (k : Nat) :
    Host.Core.run Sys2Proof.core (k + 1) s = Host.Core.run Sys2Proof.core k t := by
  have hcore : Sys2Proof.core.step s = .next t := h
  simp only [Host.Core.run, hcore]

/-- With words at the port after `done` others, a step runs the first. -/
theorem step_atPorts_append {w : CmdWord} {s t : State} (h : execWord w s = .next t) (done rest : List CmdWord) :
    step (s.atPorts ((done ++ w :: rest).map .command) done.length) =
      .next (t.atPorts ((done ++ w :: rest).map .command) (done.length + 1)) := by
  have hinput : (s.atPorts ((done ++ w :: rest).map .command) done.length).input = some (.command w) := by
    simp [State.input, State.atPorts]
  rw [step_of_command hinput]
  exact execWord_atPorts h _ _

/-- The induction behind the last statement, for words that stand at the port after others. -/
theorem run_of_issue {words : List CmdWord} {s t : State} (h : issue words s = .next t)
    (hok : words = [] ∨ t.status = .ok) (done : List CmdWord) :
    Host.Core.run Sys2Proof.core words.length (s.atPorts ((done ++ words).map .command) done.length) =
      .next (t.atPorts ((done ++ words).map .command) (done.length + words.length)) := by
  induction words generalizing s done with
  | nil =>
    obtain rfl := Host.Outcome.next.inj h
    rfl
  | cons w rest ih =>
    have ht : t.status = .ok := hok.resolve_left (List.cons_ne_nil w rest)
    obtain ⟨u, hw, -, hissue⟩ | ⟨u, -, hu, hissue⟩ | ⟨f, -, hissue⟩ | ⟨r, -, hissue⟩ := issue_cons_cases w rest s
    · have hrest := ih (hissue.symm.trans h) (.inr ht) (done ++ [w])
      rw [List.append_assoc, List.singleton_append, List.length_append, List.length_singleton] at hrest
      rw [List.length_cons, run_succ_of_next (step_atPorts_append hw done rest), hrest, Nat.add_assoc,
        Nat.add_comm 1]
    · obtain rfl := Host.Outcome.next.inj (hissue.symm.trans h)
      exact absurd ht hu
    · exact nomatch hissue.symm.trans h
    · exact nomatch hissue.symm.trans h

/-- Settles O51: the run of the words, none of which has been stepped through yet. -/
theorem steppedProgramAgreesWithIssue : Obligations.SteppedProgramAgreesWithIssue := by
  intro words s t h hok
  have hrun := run_of_issue h hok []
  rw [List.nil_append, List.length_nil, Nat.zero_add] at hrun
  exact hrun

end Sys2Proof.Machine
end
